-- ==== Sys2Proof/Word.lean ====
section
/-! DEFINITION. The word types of the ZS6240's links and memories. -/

namespace Sys2Proof

/-- A byte of a record, a scan sample, an ink value or an output level (1.7, Table 1-4). -/
abbrev Byte := BitVec 8

/-- A 16-bit field of a record or a word of the configuration memory (11.1, R177). -/
abbrev Word16 := BitVec 16

/-- The table generation (R6). -/
abbrev Word32 := BitVec 32

end Sys2Proof
end

