-- ==== Sys2Proof/Syntax.lean ====
section
/-! DEFINITION. The commands of the ZS6240: one constructor for each row of the table of operations and
events. The table gives the rows no operand; a row that brings something from outside the part
(a record, a recorder message, the words read from the configuration memory) carries it here. A row
that takes a record takes the one at the head of the intake FIFO (R56, R167, R170; log entry 1). -/

namespace Sys2Proof

/-- A record as it stands on any of the three links (11.1): its kind byte, its payload and its check.
The start symbol is no data byte, and the length is the number of payload bytes. -/
structure LinkRecord where
  kind    : Byte
  payload : List Byte
  check   : Word16
deriving DecidableEq, Repr

/-- The reason byte of CARD SPOILED (Table 9-3, 11.5). -/
inductive SpoilReason where
  | exposure
  | feed
  | punch
  | other
deriving DecidableEq, Repr

/-- The commands of spec/opcode_table.json, in the table's order. -/
inductive Instr where
  /-- POWER_ON (R177): power is applied. -/
  | powerOn
  /-- LOADING_END (R177): the words the configuration memory gave; fewer than 16 when it did not answer
  or a read failed. -/
  | loadingEnd (words : List Word16)
  /-- LINK_UP (R166). -/
  | linkUp
  /-- LINK_LOSS (R166). -/
  | linkLoss
  /-- RECORD_RECEIVED (R167): the inbound record whose reception has ended. -/
  | recordReceived (r : LinkRecord)
  /-- FRAME_HEADER (R58): the intake takes the FRAME HEADER at the head of the FIFO. -/
  | frameHeader
  /-- LINE (R65). -/
  | line
  /-- FRAME_END (R75). -/
  | frameEnd
  /-- START (R126). -/
  | start
  /-- END (R125). -/
  | endTarget
  /-- BATCH_END (R127). -/
  | batchEnd
  /-- LOSS_INDICATION (R57). -/
  | lossIndication
  /-- TABLE_WRITE (R3): the MU takes the TABLE WRITE at the head of the FIFO. -/
  | tableWrite
  /-- TABLE_FENCE (R8). -/
  | tableFence
  /-- TABLE_READ (R18). -/
  | tableRead
  /-- TABLE_DESCRIBE (R19). -/
  | tableDescribe
  /-- SET_RELEASE (R131). -/
  | setRelease
  /-- SET_DISCARD (R132). -/
  | setDiscard
  /-- CARD_CANCEL (R146). -/
  | cardCancel
  /-- STORE_SETUP (R111). -/
  | storeSetup
  /-- STORE_RETAIN (R107). -/
  | storeRetain
  /-- STORE_WAKE (R110). -/
  | storeWake
  /-- STORE_PURGE (R112). -/
  | storePurge
  /-- STORE_PURGE_DONE (R112). -/
  | storePurgeDone
  /-- MONITOR_SETUP (R87). -/
  | monitorSetup
  /-- RECORDER_SETUP (R164). -/
  | recorderSetup
  /-- STATUS_READ (R174). -/
  | statusRead
  /-- STATUS_CLEAR (R175). -/
  | statusClear
  /-- LINK_RESET (R176). -/
  | linkReset
  /-- LINK_RESET_COMPLETE (R176). -/
  | linkResetComplete
  /-- UNKNOWN_KIND (R180). -/
  | unknownKind
  /-- WRITE_BURST_SERVED (R74). -/
  | writeBurstServed
  /-- READ_BURST_SERVED (R155). -/
  | readBurstServed
  /-- REFRESH_DUE (R103). -/
  | refreshDue
  /-- REFRESH_END (R104). -/
  | refreshEnd
  /-- WAKE_END (R109). -/
  | wakeEnd
  /-- RESPONSE_TIMER_EXPIRY (R157). -/
  | responseTimerExpiry
  /-- RECORDER_STATE (R158): READY or NOT_READY. -/
  | recorderState (ready : Bool)
  /-- CARD_ACCEPTED (R159): the tray sequence echoed. -/
  | cardAccepted (echo : Word16)
  /-- CARD_SPOILED (R159): the tray sequence echoed and the reason. -/
  | cardSpoiled (echo : Word16) (reason : SpoilReason)
  /-- RECORDER_RESTARTED (R160). -/
  | recorderRestarted
  /-- RECORDER_MESSAGE_DROPPED (R152): the recorder's message as received. -/
  | recorderMessageDropped (r : LinkRecord)
  /-- RETURN_SEND_END (R173). -/
  | returnSendEnd
deriving DecidableEq, Repr

end Sys2Proof
end

