-- ==== Sys2Proof/Config.lean ====
section
/-! DEFINITION. The fixed quantities of the ZS6240 and the one free value of the model. -/

namespace Sys2Proof.Config

/-- Dots across the chip raster (Table 1-4). -/
def chipColumns : Nat := 4096
/-- Lines of the chip raster (Table 1-4). -/
def chipRows : Nat := 2912
/-- Banks of the Frame Store (Table 6-1). -/
def bankCount : Nat := 4
/-- Slots of one bank (Table 6-1). -/
def slotsPerBank : Nat := 128
/-- Slots of the Frame Store (Table 6-1). -/
def slotCount : Nat := 512
/-- Bytes of one slot, 16 MiB (Table 6-1). -/
def slotBytes : Nat := 16777216
/-- Bytes of the Frame Store, 8 GiB (Table 6-1). -/
def storeBytes : Nat := 8589934592
/-- Places of the intake FIFO (R167). -/
def fifoPlaces : Nat := 64
/-- Occupancy at which the FIFO input to HOLD is asserted as it rises (R169). -/
def holdAt : Nat := 48
/-- Occupancy at which the FIFO input to HOLD is withdrawn as it falls (R169). -/
def releaseAt : Nat := 16
/-- Replies the reply buffer holds (R171). -/
def replyPlaces : Nat := 4
/-- Notices the notice queue holds (R172). -/
def noticePlaces : Nat := 32
/-- Writes the staging list holds (R5). -/
def stagingPlaces : Nat := 64
/-- Positions of the Index Table (R1). -/
def indexPositions : Nat := 4096
/-- Classes of the Class Table (R21). -/
def classCount : Nat := 16
/-- Entries of the Card Queue (R135). -/
def queueEntries : Nat := 32
/-- Frames the unindexed group holds (R116). -/
def groupFrames : Nat := 64
/-- Set records (R113). -/
def setCount : Nat := 8
/-- Sheet positions of a set record (R113). -/
def sheetPositions : Nat := 64
/-- The refresh deferral count's limit (R103). -/
def deferralLimit : Nat := 8
/-- Rows or columns of one closing burst (R75). -/
def closingBurst : Nat := 16
/-- The marker of word 0 of the configuration memory (section 11.6's heading table, R177). -/
def markerWord : Word16 := 0x3D62
/-- The part code of STATUS READ (11.4). -/
def partCode : Word16 := 0x6240
/-- Words of the configuration memory (R177). -/
def configWords : Nat := 16

/-- Built-in defaults of Table 10-5. -/
def defaultInterval : Nat := 8
def defaultBanks : Nat := 4
def defaultTimeout : Nat := 2000
def defaultDotPitch : Nat := 100
def defaultFloor : Nat := 16
def defaultEnter : Nat := 48
def defaultLeave : Nat := 64

/-- FREE VALUE (log entry 4). R172: two notices raised at the same moment by different blocks join in
either order. The model meets this at one point: the end of a job brings a batch marker to the
queue's head (BATCH_DONE, the CS) and makes the SC ask for a pressure release (SET_FORCED, the SAU).
`markerFirst n` says which of the two the n-th such meeting takes first; nothing constrains it. -/
opaque markerFirst : Nat → Bool

end Sys2Proof.Config
end

