-- ==== Sys2Proof/Machine/Types.lean ====
section
/-! DEFINITION. The data the blocks of the ZS6240 hold: one type for each thing the manual names. -/

namespace Sys2Proof.Machine

/-! ### Inbound records (section 11.2, 11.3) -/

/-- The four film kinds (Table 11-1). -/
inductive FilmKind where
  | frameHeader | line | frameEnd | target
deriving DecidableEq, Repr

/-- The three target kinds (Table 11-2). -/
inductive TargetKind where
  | start | endSet | batchEnd
deriving DecidableEq, Repr

/-- The fields of a FRAME HEADER (Table 11-2). -/
structure Header where
  roll    : Nat
  ordinal : Nat
  ps      : Nat
  db      : Nat
  wf      : Nat
  hf      : Nat
deriving DecidableEq, Repr

/-- The fields of a TARGET (Table 11-2). -/
structure Target where
  kind    : TargetKind
  roll    : Nat
  ordinal : Nat
deriving DecidableEq, Repr

/-- A film record that passed its check, kind and length tests (R167). -/
inductive FilmRecord where
  | header   (h : Header)
  | line     (number : Nat) (samples : List Byte)
  | frameEnd (sent : Nat)
  | target   (t : Target)
deriving DecidableEq, Repr

/-- A management record's body (Table 11-5), its coded fields as received: the MU checks them. -/
inductive MgmtBody where
  | tableWrite    (kind : Byte) (position : Nat) (content : List Byte)
  | tableFence
  | tableRead     (kind : Byte) (position : Nat)
  | tableDescribe (form : Byte)
  | setRelease    (record : Nat)
  | setDiscard    (record : Nat)
  | cardCancel
  | storeSetup    (interval banks : Nat)
  | storeRetain
  | storeWake
  | storePurge
  | monitorSetup  (floor enter leave : Nat) (enable : Byte)
  | recorderSetup (pr timeout : Nat)
  | statusRead
  | statusClear   (mask : Byte)
  | linkReset
  /-- A management code, 50H..7FH, that names no kind (R180). -/
  | unknown       (code : Byte)
deriving DecidableEq, Repr

/-- What a place of the intake FIFO holds (R167). -/
inductive Content where
  | film (r : FilmRecord)
  | mgmt (tag : Byte) (b : MgmtBody)
  | loss (k : FilmKind)
deriving DecidableEq, Repr

/-- A place of the intake FIFO with the loss marks attached to it, in arrival order (R168). -/
structure Place where
  content : Content
  marks   : List FilmKind
deriving DecidableEq, Repr

/-! ### Tables (chapters 1 and 2) -/

/-- A drawing number of 16 characters and a revision that may be absent (R2); equality of two keys is
equality of this data. -/
structure DrawingKey where
  number   : List Byte
  revision : Option (Byte × Byte)
deriving DecidableEq, Repr

/-- A valid Index Table entry (Table 1-8). -/
structure IndexEntry where
  roll       : Nat
  first      : Nat
  count      : Nat
  key        : DrawingKey
  firstSheet : Nat
  sheetCount : Nat
  sameSheet  : Bool
  superseded : Bool
  cls        : Nat
  rf         : Nat
deriving DecidableEq, Repr

/-- The fit policies (Table 2-1). -/
inductive Fit where
  | shrink | crop
deriving DecidableEq, Repr

/-- Clockwise rotations (Table 1-4). -/
inductive Rotation where
  | r0 | r90 | r180 | r270
deriving DecidableEq, Repr

/-- The short policies (Table 2-1). -/
inductive ShortPolicy where
  | hold | send
deriving DecidableEq, Repr

/-- A class entry (Table 2-1). On the staging list its level may be 0 and its depth any value (R22). -/
structure ClassEntry where
  rc        : Nat
  assumedRf : Nat
  fit       : Fit
  landscape : Rotation
  portrait  : Rotation
  tone      : Nat
  depth     : Nat
  margin    : Byte
  level     : Nat
  copies    : Nat
  retries   : Nat
  short     : ShortPolicy
  breakIn   : Bool
  yield     : Bool
deriving DecidableEq, Repr

/-- A staged write: the table kind, the position and the whole new content (section 1.2). An INDEX write
of `none` is an invalidating write (R4). -/
inductive StagedWrite where
  | index (position : Nat) (entry : Option IndexEntry)
  | cls   (position : Nat) (entry : ClassEntry)
  | tone  (table entry : Nat) (ink : Byte)
deriving DecidableEq, Repr

/-- What the IMU takes from a matched entry (Table 1-11). -/
structure Matched where
  key        : DrawingKey
  sheet      : Nat
  sheetCount : Nat
  cls        : Nat
  rf         : Nat
deriving DecidableEq, Repr

/-- The match result of a header (Table 1-11). -/
inductive MatchResult where
  | leader
  | superseded (position : Nat) (m : Matched)
  | indexed    (position : Nat) (m : Matched)
  | unindexed  (rf : Nat)
deriving DecidableEq, Repr

/-! ### Card flags (Table 6-3, 11.5) -/

/-- The flags of a slot record and of a card header (11.5, from bit 0 upward). -/
structure CardFlags where
  retake        : Bool := false
  reduced       : Bool := false
  cropped       : Bool := false
  scaleLimited  : Bool := false
  thin          : Bool := false
  gapped        : Bool := false
  shortSet      : Bool := false
  uncollated    : Bool := false
  unindexed     : Bool := false
  spill         : Bool := false
  extra         : Bool := false
  paramClamped  : Bool := false
  separatorOpen : Bool := false
  separatorClose : Bool := false
deriving DecidableEq, Repr

/-! ### The geometry record (Table 3-1) -/

/-- The fit outcomes (R43 to R45). -/
inductive FitOutcome where
  | complete | reduced | cropped
deriving DecidableEq, Repr

/-- The GU's geometry record (Table 3-1). -/
structure Geometry where
  ps       : Nat
  wf       : Nat
  hf       : Nat
  rf       : Nat
  rc       : Nat
  pr       : Nat
  fit      : Fit
  rotation : Rotation
  /-- Rotated extents W′ and H′ (R39). -/
  wr       : Nat
  hr       : Nat
  /-- Numerator and denominator of the base scale (R41). -/
  num      : Nat
  den      : Nat
  scale    : Nat
  outcome  : FitOutcome
  wo       : Nat
  ho       : Nat
  xoff     : Int
  yoff     : Int
  re       : Nat
  /-- The geometry flags PARAM_CLAMPED (R37) and SCALE_LIMITED (R42); REDUCED and CROPPED are the fit outcome. -/
  clamped  : Bool
  limited  : Bool
deriving DecidableEq, Repr

/-! ### The intake (chapter 4) -/

/-- Why a frame is discarded (Table 4-3). -/
inductive DiscardReason where
  | linkError | badHeader | leader | superseded | floor
deriving DecidableEq, Repr

/-- The destination of a frame (Table 7-4). -/
inductive Destination where
  | set (record : Nat)
  | group
  | passThrough
deriving DecidableEq, Repr

/-- The carry: the raster row or column it belongs to and its ink values (R72). -/
structure Carry where
  line : Nat
  inks : List Byte
deriving DecidableEq, Repr

/-- The frame context of the open frame (Table 4-2), with the captured depth and margin ink (R24). -/
structure FrameCtx where
  roll     : Nat
  ordinal  : Nat
  wf       : Nat
  hf       : Nat
  /-- The matched entry of an INDEXED frame; none for an UNINDEXED one. -/
  entry    : Option Matched
  dest     : Destination
  flags    : CardFlags
  depth    : Nat
  margin   : Byte
  slot     : Option Nat
  expected : Nat
  records  : Nat
  gap      : Bool
  carry    : Option Carry
deriving DecidableEq, Repr

/-- The intake state with what R55 says each state holds. -/
inductive Intake where
  | idle
  | receiving (f : FrameCtx)
  | discarding (reason : DiscardReason) (roll ordinal : Nat)
  | waitSlot (f : FrameCtx)
  | waitReservation (f : FrameCtx)
  | waitTarget (t : Target)
deriving DecidableEq, Repr

/-- The film record the intake has taken and not finished with (R56). -/
inductive Work where
  | none
  /-- A LINE to be resampled once the lines before it have been filled (R65). -/
  | line (number : Nat) (samples : List Byte)
  /-- The trailing fill of a close: by a FRAME END with its lines-sent count, or by an implicit end (R75, R76). -/
  | fill (sent : Option Nat)
  /-- The closing bursts still to be issued, each a first row or column and a count (R75 step 3). -/
  | margins (implicit : Bool) (bursts : List (Nat × Nat))
deriving DecidableEq, Repr

/-! ### The Frame Store (chapter 6) -/

/-- What owns a slot (Table 6-3). -/
inductive Owner where
  | openFrame
  | set (record sheet : Nat)
  | group (position : Nat)
  | reserved
  | job (id position : Nat)
deriving DecidableEq, Repr

/-- The states of a slot that holds a chip (R90). -/
inductive ChipState where
  | filling | filed | queued | recording
deriving DecidableEq, Repr

/-- The fields of a slot record that holds a chip (Table 6-3). -/
structure Chip where
  owner   : Owner
  roll    : Nat
  ordinal : Nat
  depth   : Nat
  re      : Nat
  flags   : CardFlags
deriving DecidableEq, Repr

/-- A slot record (R90): a FREE or OFFLINE slot carries no other field. -/
inductive Slot where
  | free
  | offline
  | held (state : ChipState) (chip : Chip)
deriving DecidableEq, Repr

/-- The two kinds of burst; also the turn of a bank's arbiter (R99, R100). -/
inductive BurstKind where
  | read | write
deriving DecidableEq, Repr

/-- A burst writes whole raster rows or whole raster columns (R71). -/
inductive Axis where
  | rows | columns
deriving DecidableEq, Repr

/-- The write burst waiting or active (R99): the first row or column it writes and the levels of each. -/
structure WriteBurst where
  slot   : Nat
  axis   : Axis
  first  : Nat
  lines  : List (List Byte)
  active : Bool
  /-- The burst's frame was aborted while the burst was active: the slot is given back when it ends (R79, R98). -/
  aborted : Bool
deriving DecidableEq, Repr

/-- The read burst waiting or active (R99). -/
structure ReadBurst where
  slot    : Nat
  row     : Nat
  active  : Bool
  /-- The burst's card has ended: the row is discarded when it ends (R160, R162). -/
  discard : Bool
  /-- LINK RESET came while the burst was active, or STORE PURGE while it was left of an ended card: the slot is freed
  when it ends (R93, R99). -/
  release : Bool
deriving DecidableEq, Repr

/-- The refresh that is running: the due one, a deferred one, or one owed to a forced refresh beyond the
deferred ones (R103 to R105). -/
inductive Refresh where
  | due | deferred | owed
deriving DecidableEq, Repr

/-- The store modes (R106). -/
inductive StoreMode where
  | active | retaining | waking
deriving DecidableEq, Repr

/-! ### Set assembly (chapter 7) -/

/-- A position of a set record's sheet table (R114). -/
inductive SheetPos where
  | empty
  | filed (slot roll ordinal : Nat) (flags : CardFlags)
  | spilled
deriving DecidableEq, Repr

/-- Set record states (Table 7-3). -/
inductive SetState where
  | empty | opened | held | closed
deriving DecidableEq, Repr

/-- What a set record takes from the match result of its first filed frame (R121). -/
structure Title where
  key        : DrawingKey
  sheetCount : Nat
  cls        : Nat
deriving DecidableEq, Repr

/-- A set record (Table 7-2). The key, sheet count and class are absent together (R121). -/
structure SetRecord where
  state   : SetState
  title   : Option Title
  short   : Bool
  spill   : Bool
  retakes : Nat
  /-- The opening order: the count of openings when this record was opened; none when EMPTY. -/
  opening : Option Nat
  sheets  : List SheetPos
deriving DecidableEq, Repr

/-- A position of the unindexed group (R116). -/
structure GroupFrame where
  slot    : Nat
  roll    : Nat
  ordinal : Nat
  flags   : CardFlags
deriving DecidableEq, Repr

/-- The states of the unindexed group (R116). -/
inductive GroupState where
  | empty | collecting | closed
deriving DecidableEq, Repr

/-- The items of the enqueue backlog (R117). A spill request names its record and that record's opening. -/
inductive BacklogItem where
  | set (record : Nat)
  | group
  | spill (record opening : Nat)
  | marker
deriving DecidableEq, Repr

/-! ### The Card Queue (chapter 8) -/

/-- The job kinds (R28). -/
inductive JobKind where
  | set | partialSet | passThrough | unindexedGroup
deriving DecidableEq, Repr

/-- A position of a job's card list (R137). -/
structure CardPos where
  slot    : Nat
  /-- Sheet number, or group position, or 0 for an unindexed pass-through. -/
  sheet   : Nat
  roll    : Nat
  ordinal : Nat
deriving DecidableEq, Repr

/-- A job (R137) with its card progress: the index in the card list (0 for position 1) and the next copy. -/
structure Job where
  /-- The model's own name for the entry. -/
  id         : Nat
  kind       : JobKind
  cls        : Nat
  key        : Option DrawingKey
  sheetCount : Option Nat
  cards      : List CardPos
  copies     : Nat
  retries    : Nat
  short      : Bool
  spill      : Bool
  nextPos    : Nat
  nextCopy   : Nat
deriving DecidableEq, Repr

/-- An entry of the Card Queue (R135). -/
inductive Entry where
  | job (j : Job)
  | marker
  | reservation
deriving DecidableEq, Repr

/-- The phases of a break-in (Table 8-3). -/
inductive BreakPhase where
  | opening | running | closing
deriving DecidableEq, Repr

/-- A break-in in progress (R145): the interrupted job and what the separators take from the break-in job. -/
structure BreakIn where
  phase       : BreakPhase
  interrupted : Nat
  key         : Option DrawingKey
  sheetCount  : Option Nat
  cls         : Nat
  retries     : Nat
deriving DecidableEq, Repr

/-- The card that ended last (R144): a separator, or a card of the job named. -/
inductive LastCard where
  | none | separator | job (id : Nat)
deriving DecidableEq, Repr

/-! ### The card link (chapter 9) -/

/-- What card is sent (Table 9-2). -/
inductive CardKind where
  | chip (job position copy slot : Nat)
  | separatorOpen
  | separatorClose
deriving DecidableEq, Repr

/-- The states of the card in flight (9.4). -/
inductive CardState where
  | sending | paused | awaiting
deriving DecidableEq, Repr

/-- The card in flight (Table 9-2). -/
structure Card where
  state    : CardState
  kind     : CardKind
  attempt  : Nat
  tray     : Nat
  nextLine : Nat
  buffer   : Option (List Byte)
deriving DecidableEq, Repr

/-- The causes of a failed or rejected attempt (R159), in the order of their codes (Table 11-7). -/
inductive Cause where
  | exposure | feed | punch | other | timeout | restarted | cancelled
deriving DecidableEq, Repr

/-! ### Replies, notices and the sticky flags (chapter 10) -/

/-- The sticky flags (R175). -/
structure Sticky where
  noticesLost     : Bool := false
  overrun         : Bool := false
  linkLostSeen    : Bool := false
  storeLost       : Bool := false
  configDefaulted : Bool := false
deriving DecidableEq, Repr

/-- The last reset kind (Table 10-1). -/
inductive ResetKind where
  | power | link
deriving DecidableEq, Repr

/-- The start-up state (R177). -/
inductive Startup where
  | loading | running
deriving DecidableEq, Repr

/-- The link state (R166). -/
inductive LinkState where
  | up | down
deriving DecidableEq, Repr

/-- The density monitor's state (R83). -/
inductive Density where
  | normal | thin
deriving DecidableEq, Repr

/-- The last header the density monitor evaluated (Table 5-1). -/
structure Evaluation where
  roll    : Nat
  ordinal : Nat
  db      : Nat
deriving DecidableEq, Repr

/-- The reasons of a REFUSED reply (R170), in the order of their codes (11.4). -/
inductive Reason where
  | full | badField | badPosition | notNow | unknownKind
deriving DecidableEq, Repr

/-- STATUS READ's entry for one set record (R113). -/
structure SetStatus where
  state      : SetState
  key        : Option DrawingKey
  present    : Nat
  sheetCount : Option Nat
  retakes    : Nat
deriving DecidableEq, Repr

/-- The intake state as STATUS READ names it, with the wait cause of WAITING (Table 10-4). -/
inductive IntakeStatus where
  | idle | receiving | discarding | waitSlot | waitReservation | waitTarget
deriving DecidableEq, Repr

/-- The items of STATUS READ (Table 10-4), in its order. -/
structure StatusReport where
  intake      : IntakeStatus
  mode        : StoreMode
  free        : Nat
  filling     : Nat
  filed       : Nat
  queued      : Nat
  recording   : Nat
  offline     : Nat
  deferral    : Nat
  sets        : List SetStatus
  current     : Option Nat
  passMode    : Bool
  group       : GroupState
  groupFrames : Nat
  backlog     : Nat
  entries     : Nat
  jobs        : Nat
  markers     : Nat
  card        : Option (Nat × Nat)
  ready       : Bool
  batch       : Nat
  nextTray    : Nat
  density     : Density
  sticky      : Sticky
  lastReset   : ResetKind
  serial1     : Word16
  serial2     : Word16
  station     : Word16
deriving DecidableEq, Repr

/-- The data of an OK reply, one form for each record's rule (R170). -/
inductive ReplyData where
  | none
  | staged       (count : Nat)
  | generation   (g : Word32)
  | indexEntry   (g : Word32) (e : Option IndexEntry)
  | classEntry   (g : Word32) (c : ClassEntry)
  | toneEntry    (g : Word32) (ink : Byte)
  | describeShort (valid generation : Nat)
  | describeLong  (valid : Nat) (g : Word32) (staged : Nat) (highest lowestInvalid : Option Nat)
  | setState     (s : SetState)
  | freed        (slots : Nat)
  | cancelled    (card : Option (Nat × Nat))
  | store        (interval banks : Nat)
  | mode         (m : StoreMode)
  | monitor      (floor enter leave : Nat) (enable : Bool) (state : Density)
  | recorder     (pr timeout : Nat)
  | status       (r : StatusReport)
  | flags        (f : Sticky)
deriving DecidableEq, Repr

/-- A reply's result (R170). -/
inductive ReplyResult where
  | ok (d : ReplyData)
  | refused (r : Reason)
deriving DecidableEq, Repr

/-- A reply: the tag, the kind code answered and the result (R170). -/
structure Reply where
  tag    : Byte
  code   : Byte
  result : ReplyResult
deriving DecidableEq, Repr

/-- The notice kinds, in the order of their codes (Table 11-7). -/
inductive NoticeKind where
  | frameUnterminated | frameLost | supersededSkipped | floorReject | densityWarn | densityClear
  | missingEnd | setShort | setForced | cardRejected | lateResponse | recorderRestarted
  | linkLost | linkError | paramClamped | batchDone
deriving DecidableEq, Repr

/-- A notice (R172). -/
structure Notice where
  kind    : NoticeKind
  roll    : Nat
  ordinal : Nat
  key     : Option DrawingKey
  sheet   : Option Nat
  setNo   : Option Nat
  detail  : Nat
deriving DecidableEq, Repr

/-- What the return channel is sending (R173): the item at the head of its queue, which stands there until its sending ends. -/
inductive Sending where
  | reply
  | notice
deriving DecidableEq, Repr

/-- What has left on the return channel: a HOLD or release symbol, or a record (R169, R173). -/
inductive ReturnItem where
  | symbol (hold : Bool)
  | record (r : LinkRecord)
deriving DecidableEq, Repr

end Sys2Proof.Machine
end

