-- ==== Sys2Proof/Machine/Operands.lean ====
section
/-! DEFINITION. Reading what the links bring: byte order, the 16-bit check, the tests a record passes on
arrival, the parsing of record payloads, and the content checks of table writes
(chapter 11, R3, R4, R22, R168, R179, R180). -/

namespace Sys2Proof.Machine

/-! ### Byte order (11.1: most significant byte first) -/

def byteOf (n : Nat) : Byte := BitVec.ofNat 8 n
def be16 (n : Nat) : List Byte := [byteOf (n / 256), byteOf n]
def be32 (n : Nat) : List Byte := [byteOf (n / 16777216), byteOf (n / 65536), byteOf (n / 256), byteOf n]

/-- The byte at an offset of a payload. -/
def byteAt (p : List Byte) (i : Nat) : Byte := p.getD i 0
def nat8 (p : List Byte) (i : Nat) : Nat := (byteAt p i).toNat
def nat16 (p : List Byte) (i : Nat) : Nat := nat8 p i * 256 + nat8 p (i + 1)

/-! ### The check (11.1, R180) -/

/-- One bit of the cyclic check, generator 1021H, most significant bit first. -/
def crcBit (c : Word16) : Word16 := if c.msb then (c <<< 1) ^^^ 0x1021 else c <<< 1

/-- One byte of the cyclic check. -/
def crcByte (c : Word16) (b : Byte) : Word16 :=
  crcBit (crcBit (crcBit (crcBit (crcBit (crcBit (crcBit (crcBit (c ^^^ (b.setWidth 16 <<< 8)))))))))

/-- R180: the check over the kind, the length and the payload, initial value FFFFH, no final complement. -/
def checkOf (kind : Byte) (payload : List Byte) : Word16 :=
  (kind :: (be16 payload.length ++ payload)).foldl crcByte 0xFFFF

/-- A record the part sends, with its check (R180). -/
def sealRecord (kind : Byte) (payload : List Byte) : LinkRecord :=
  { kind := kind, payload := payload, check := checkOf kind payload }

/-- R180: the check computed agrees with the check received. -/
def checkHolds (r : LinkRecord) : Bool := r.check == checkOf r.kind r.payload

/-! ### Inbound kinds (Table 11-1) -/

/-- The film kind a code names. -/
def filmKind? (code : Byte) : Option FilmKind :=
  match code.toNat with
  | 1 => some .frameHeader
  | 2 => some .line
  | 3 => some .frameEnd
  | 4 => some .target
  | _ => none

/-- The code of a film kind. -/
def FilmKind.code : FilmKind → Nat
  | .frameHeader => 1
  | .line => 2
  | .frameEnd => 3
  | .target => 4

/-- A code 40H..7FH is a management code (11.1). -/
def isMgmtCode (code : Byte) : Bool := 0x40 ≤ code.toNat && code.toNat ≤ 0x7F

/-- A code 40H..4FH names a management kind (Table 11-1). -/
def isMgmtKind (code : Byte) : Bool := 0x40 ≤ code.toNat && code.toNat ≤ 0x4F

/-- The payload bytes of a known management kind (Table 11-5). -/
def mgmtLength (code : Byte) : Nat :=
  match code.toNat with
  | 0x40 => 38
  | 0x42 => 6
  | 0x43 => 3
  | 0x44 => 3
  | 0x45 => 3
  | 0x47 => 4
  | 0x4B => 6
  | 0x4C => 6
  | 0x4E => 3
  | _ => 2

/-- R180: the length test of an inbound record. A code that names neither a film kind nor a management code has
no length to test. -/
def lengthOk (code : Byte) (p : List Byte) : Bool :=
  match filmKind? code with
  | some .frameHeader => p.length == 10
  | some .line => p.length == 4 + nat16 p 2
  | some .frameEnd => p.length == 2
  | some .target => p.length == 6
  | none => if isMgmtKind code then p.length == mgmtLength code else if isMgmtCode code then 2 ≤ p.length else true

/-- The target kind a byte codes (Table 11-2). -/
def targetKind? (b : Byte) : Option TargetKind :=
  match b.toNat with
  | 1 => some .start
  | 2 => some .endSet
  | 3 => some .batchEnd
  | _ => none

/-- R180: the coded value that is tested with the length: a TARGET's kind. -/
def codedOk (code : Byte) (p : List Byte) : Bool :=
  match filmKind? code with
  | some .target => (targetKind? (byteAt p 4)).isSome
  | _ => true

/-- The low 14 bits of an extent field; the top two bits are reserved (Table 11-2, R179). -/
def extent (n : Nat) : Nat := n % 16384

/-- Table 11-2: the film record in a payload that passed its tests. -/
def parseFilm (k : FilmKind) (p : List Byte) : FilmRecord :=
  match k with
  | .frameHeader =>
    .header { roll := nat16 p 0, ordinal := nat16 p 2, ps := nat8 p 4, db := nat8 p 5
              wf := extent (nat16 p 6), hf := extent (nat16 p 8) }
  | .line => .line (nat16 p 0) (p.drop 4)
  | .frameEnd => .frameEnd (nat16 p 0)
  | .target =>
    .target { kind := (targetKind? (byteAt p 4)).getD .start, roll := nat16 p 0, ordinal := nat16 p 2 }

/-- Table 11-5: the management body in a payload that passed its tests. Reserved bytes are not read (R179). -/
def parseMgmt (code : Byte) (p : List Byte) : MgmtBody :=
  match code.toNat with
  | 0x40 => .tableWrite (byteAt p 2) (nat16 p 4) (p.drop 6)
  | 0x41 => .tableFence
  | 0x42 => .tableRead (byteAt p 2) (nat16 p 4)
  | 0x43 => .tableDescribe (byteAt p 2)
  | 0x44 => .setRelease (nat8 p 2)
  | 0x45 => .setDiscard (nat8 p 2)
  | 0x46 => .cardCancel
  | 0x47 => .storeSetup (nat8 p 2) (nat8 p 3)
  | 0x48 => .storeRetain
  | 0x49 => .storeWake
  | 0x4A => .storePurge
  | 0x4B => .monitorSetup (nat8 p 2) (nat8 p 3) (nat8 p 4) (byteAt p 5)
  | 0x4C => .recorderSetup (nat16 p 2) (nat16 p 4)
  | 0x4D => .statusRead
  | 0x4E => .statusClear (byteAt p 2)
  | 0x4F => .linkReset
  | _ => .unknown code

/-- The kind code of a management body (Table 11-1). -/
def MgmtBody.code : MgmtBody → Byte
  | .tableWrite .. => 0x40
  | .tableFence => 0x41
  | .tableRead .. => 0x42
  | .tableDescribe _ => 0x43
  | .setRelease _ => 0x44
  | .setDiscard _ => 0x45
  | .cardCancel => 0x46
  | .storeSetup .. => 0x47
  | .storeRetain => 0x48
  | .storeWake => 0x49
  | .storePurge => 0x4A
  | .monitorSetup .. => 0x4B
  | .recorderSetup .. => 0x4C
  | .statusRead => 0x4D
  | .statusClear _ => 0x4E
  | .linkReset => 0x4F
  | .unknown c => c

/-- What becomes of an inbound record on arrival, the room in the FIFO aside (R168, R180). -/
inductive Arrival where
  /-- A check error: the film kind its code names, if it names one, and the detail code of LINK_ERROR. -/
  | checkError (film : Option FilmKind) (detail : Nat)
  /-- A record that joins the FIFO. -/
  | accepted (c : Content)
  /-- A code that names no inbound kind and is no management code. -/
  | unknown
deriving DecidableEq, Repr

/-- R168, R180: the tests of an inbound record. The detail code of a check error is the kind code, or 0 for a code
that names no known kind. -/
def arrival (r : LinkRecord) : Arrival :=
  if checkHolds r && lengthOk r.kind r.payload && codedOk r.kind r.payload then
    match filmKind? r.kind with
    | some k => .accepted (.film (parseFilm k r.payload))
    | none =>
      if isMgmtCode r.kind then .accepted (.mgmt (byteAt r.payload 0) (parseMgmt r.kind r.payload)) else .unknown
  else
    match filmKind? r.kind with
    | some k => .checkError (some k) k.code
    | none => .checkError none (if isMgmtKind r.kind then r.kind.toNat else 0)

/-- The film kind of a content, whose loss is marked when it is dropped (R168). -/
def Content.filmKind? : Content → Option FilmKind
  | .film (.header _) => some .frameHeader
  | .film (.line ..) => some .line
  | .film (.frameEnd _) => some .frameEnd
  | .film (.target _) => some .target
  | .mgmt .. => none
  | .loss k => some k

/-! ### Recorder messages (Table 9-3, 11.5) -/

/-- A recorder message that passed its tests. -/
inductive RecorderMessage where
  | state (ready : Bool)
  | accepted (echo : Nat)
  | spoiled (echo : Nat) (reason : SpoilReason)
  | restarted
deriving DecidableEq, Repr

/-- The spoil reason a byte codes (11.5). -/
def spoilReason? (b : Byte) : Option SpoilReason :=
  match b.toNat with
  | 1 => some .exposure
  | 2 => some .feed
  | 3 => some .punch
  | 4 => some .other
  | _ => none

/-- R152, R180: the message in a record from the recorder, or none when it is dropped. -/
def recorderMessage? (r : LinkRecord) : Option RecorderMessage :=
  if checkHolds r then
    match r.kind.toNat with
    | 0xD0 =>
      if r.payload.length == 1 then
        match (byteAt r.payload 0).toNat with
        | 0 => some (.state false)
        | 1 => some (.state true)
        | _ => none
      else none
    | 0xD1 => if r.payload.length == 2 then some (.accepted (nat16 r.payload 0)) else none
    | 0xD2 =>
      if r.payload.length == 3 then (spoilReason? (byteAt r.payload 2)).map (.spoiled (nat16 r.payload 0)) else none
    | 0xD3 => if r.payload.length == 0 then some .restarted else none
    | _ => none
  else none

/-! ### Content checks of a TABLE WRITE (R3, R4, R22, R32) -/

/-- The three table kinds with their codes (Table 11-5). -/
inductive TableKind where
  | index | cls | tone
deriving DecidableEq, Repr

def tableKind? (b : Byte) : Option TableKind :=
  match b.toNat with
  | 1 => some .index
  | 2 => some .cls
  | 3 => some .tone
  | _ => none

/-- Table 1-9: the position lies in the range of its table. A TONE position is the table number, then the entry
number, each one byte. -/
def positionOk (k : TableKind) (position : Nat) : Bool :=
  match k with
  | .index => position < Config.indexPositions
  | .cls => position < Config.classCount
  | .tone => position / 256 ≤ 7

/-- Table 11-8: a code of the 40-character set. -/
def isCharacter (b : Byte) : Bool :=
  let n := b.toNat
  n == 0x20 || n == 0x2D || n == 0x2E || n == 0x2F || (0x30 ≤ n && n ≤ 0x39) || (0x41 ≤ n && n ≤ 0x5A)

def blankCharacter : Byte := 0x20

/-- A yes-or-no byte (Table 11-3, Table 11-4). -/
def flag? (b : Byte) : Option Bool :=
  match b.toNat with
  | 0 => some false
  | 1 => some true
  | _ => none

/-- `n` when it lies in `lo..hi`. -/
def inRange (lo hi n : Nat) : Bool := lo ≤ n && n ≤ hi

/-- R2, R4: the drawing number is left-justified, of the character set, its first character not a space. -/
def numberOk (number : List Byte) : Bool := number.all isCharacter && number.headD blankCharacter != blankCharacter

/-- R2, R4: the revision as two characters; two spaces mean absent. None when it fails its checks. -/
def revision? (a b : Byte) : Option (Option (Byte × Byte)) :=
  if a == blankCharacter && b == blankCharacter then some none
  else if isCharacter a && isCharacter b && a != blankCharacter then some (some (a, b))
  else none

/-- R4: the second case of an INDEX content, laid out as Table 11-3. -/
def parseIndexEntry (c : List Byte) : Option IndexEntry :=
  match flag? (byteAt c 1), flag? (byteAt c 2), revision? (byteAt c 30) (byteAt c 31) with
  | some same, some sup, some rev =>
    let number := (c.drop 14).take 16
    let e : IndexEntry :=
      { roll := nat16 c 4, first := nat16 c 6, count := nat16 c 8, key := { number := number, revision := rev }
        firstSheet := nat8 c 10, sheetCount := nat8 c 11, sameSheet := same, superseded := sup
        cls := nat8 c 3, rf := nat16 c 12 }
    if inRange 1 65535 e.roll && inRange 1 65535 e.first && inRange 1 256 e.count
        && inRange 1 64 e.firstSheet && inRange 1 64 e.sheetCount && inRange 1 15 e.cls && inRange 80 500 e.rf
        && number.length == 16 && numberOk number
        && (same || e.firstSheet + e.count - 1 ≤ 64) then some e else none
  | _, _, _ => none

/-- R4: an INDEX content; `some none` is an invalidating write, none a content refused BAD_FIELD. -/
def parseIndexContent (c : List Byte) : Option (Option IndexEntry) :=
  match flag? (byteAt c 0) with
  | some false => some none
  | some true => (parseIndexEntry c).map some
  | none => none

def fit? (b : Byte) : Option Fit :=
  match b.toNat with
  | 0 => some .shrink
  | 1 => some .crop
  | _ => none

def rotation? (b : Byte) : Option Rotation :=
  match b.toNat with
  | 0 => some .r0
  | 1 => some .r90
  | 2 => some .r180
  | 3 => some .r270
  | _ => none

def shortPolicy? (b : Byte) : Option ShortPolicy :=
  match b.toNat with
  | 0 => some .hold
  | 1 => some .send
  | _ => none

/-- R22: a CLASS content, laid out as Table 11-4. The depth is not checked and the level may be 0. -/
def parseClassContent (c : List Byte) : Option ClassEntry :=
  match fit? (byteAt c 4), rotation? (byteAt c 5), rotation? (byteAt c 6), shortPolicy? (byteAt c 13),
      flag? (byteAt c 14), flag? (byteAt c 15) with
  | some fit, some land, some port, some pol, some bi, some yi =>
    let e : ClassEntry :=
      { rc := nat16 c 0, assumedRf := nat16 c 2, fit := fit, landscape := land, portrait := port
        tone := nat8 c 7, depth := nat8 c 8, margin := byteAt c 9, level := nat8 c 10, copies := nat8 c 11
        retries := nat8 c 12, short := pol, breakIn := bi, yield := yi }
    if inRange 80 500 e.rc && inRange 80 500 e.assumedRf && e.tone ≤ 7 && e.level ≤ 3 && inRange 1 3 e.copies
        && e.retries ≤ 3 then some e else none
  | _, _, _, _, _, _ => none

/-- R3 steps 1 to 3: the staged write a TABLE WRITE asks for, or the reason of the first failing check. -/
def parseWrite (kind : Byte) (position : Nat) (content : List Byte) : Except Reason StagedWrite :=
  match tableKind? kind with
  | none => .error .badField
  | some k =>
    if positionOk k position then
      match k with
      | .index =>
        match parseIndexContent content with
        | some e => .ok (.index position e)
        | none => .error .badField
      | .cls =>
        match parseClassContent content with
        | some e => .ok (.cls position e)
        | none => .error .badField
      | .tone => .ok (.tone (position / 256) (position % 256) (byteAt content 0))
    else .error .badPosition

end Sys2Proof.Machine
end

