-- ==== Sys2Proof/Machine/Flags.lean ====
section
/-! DEFINITION. The flag words: the card flags of a slot record and of a card header, and the sticky flags
(Table 6-3, R153, R175, 11.5). -/

namespace Sys2Proof.Machine

def bit (b : Bool) (weight : Nat) : Nat := if b then weight else 0

/-- 11.5: the flag word of a card header; bits 14 and 15 are reserved and sent as zero. -/
def CardFlags.word (f : CardFlags) : Nat :=
  bit f.retake 1 + bit f.reduced 2 + bit f.cropped 4 + bit f.scaleLimited 8 + bit f.thin 16 + bit f.gapped 32
    + bit f.shortSet 64 + bit f.uncollated 128 + bit f.unindexed 256 + bit f.spill 512 + bit f.extra 1024
    + bit f.paramClamped 2048 + bit f.separatorOpen 4096 + bit f.separatorClose 8192

/-- R175: the flags that a STATUS CLEAR's byte names are cleared, the others stand (Table 11-5). -/
def Sticky.clear (f : Sticky) (mask : Byte) : Sticky where
  noticesLost := f.noticesLost && !mask.getLsbD 0
  overrun := f.overrun && !mask.getLsbD 1
  linkLostSeen := f.linkLostSeen && !mask.getLsbD 2
  storeLost := f.storeLost && !mask.getLsbD 3
  configDefaulted := f.configDefaulted && !mask.getLsbD 4

/-- R53, R59: the frame flags started at a header: THIN and the geometry flags. -/
def frameFlags (thin : Bool) (g : Geometry) : CardFlags where
  thin := thin
  paramClamped := g.clamped
  scaleLimited := g.limited
  reduced := g.outcome == .reduced
  cropped := g.outcome == .cropped

end Sys2Proof.Machine
end

