-- ==== Sys2Proof/Machine/Layout.lean ====
section
/-! DEFINITION. The records the part sends: replies and notices on the return channel, messages on the Card
Link (sections 11.3 to 11.5). Reserved fields and bits are sent as zero (R179). -/

namespace Sys2Proof.Machine

/-! ### Items (11.4) -/

/-- 11.4: a two-byte item that may be none or absent, which is sent as FFFFH. -/
def be16? (n : Option Nat) : List Byte := be16 (n.getD 0xFFFF)

/-- 11.4: a flag in one byte by the order "set, clear" of its owning table (log entry 8). -/
def flagByte (b : Bool) : List Byte := [if b then 0 else 1]

/-- A yes-or-no byte of a table's layout (Table 11-3, Table 11-4). -/
def yesByte (b : Bool) : List Byte := [if b then 1 else 0]

/-- R2, R18, Table 11-3: an absent revision is two spaces in the content of an index record. In the two revision bytes of
CARD OPEN (11.5) and of a notice's or a reply's drawing key (11.4) it is two spaces too (log entry 38). -/
def revisionBytes (r : Option (Byte × Byte)) : List Byte :=
  match r with
  | some (a, b) => [a, b]
  | none => [blankCharacter, blankCharacter]

/-- 18 bytes of a drawing key. -/
def keyBytes (k : DrawingKey) : List Byte := k.number ++ revisionBytes k.revision

/-- 11.4: a drawing key in a reply, 18 bytes of FFH when absent. -/
def keyBytes? (k : Option DrawingKey) : List Byte :=
  match k with
  | some k => keyBytes k
  | none => List.replicate 18 0xFF

def SetState.byte : SetState → Byte
  | .empty => 0
  | .opened => 1
  | .held => 2
  | .closed => 3

def StoreMode.byte : StoreMode → Byte
  | .active => 0
  | .retaining => 1
  | .waking => 2

def GroupState.byte : GroupState → Byte
  | .empty => 0
  | .collecting => 1
  | .closed => 2

def Density.byte : Density → Byte
  | .normal => 0
  | .thin => 1

def ResetKind.byte : ResetKind → Byte
  | .power => 0
  | .link => 1

/-- Table 4-1's order of the intake states. -/
def IntakeStatus.byte : IntakeStatus → Byte
  | .idle => 0
  | .receiving => 1
  | .discarding => 2
  | .waitSlot | .waitReservation | .waitTarget => 3

/-- Table 4-2's order of the wait causes. -/
def IntakeStatus.cause : IntakeStatus → Option Nat
  | .waitSlot => some 0
  | .waitReservation => some 1
  | .waitTarget => some 2
  | .idle | .receiving | .discarding => none

/-! ### Table contents (Table 11-3, Table 11-4) -/

/-- R18: an invalid entry is sent with valid no and every other field zero. -/
def indexBytes (e : Option IndexEntry) : List Byte :=
  match e with
  | none => List.replicate 32 0
  | some e =>
    yesByte true ++ yesByte e.sameSheet ++ yesByte e.superseded ++ [byteOf e.cls] ++ be16 e.roll ++ be16 e.first
      ++ be16 e.count ++ [byteOf e.firstSheet, byteOf e.sheetCount] ++ be16 e.rf ++ keyBytes e.key

def Fit.byte : Fit → Byte
  | .shrink => 0
  | .crop => 1

def Rotation.byte : Rotation → Byte
  | .r0 => 0
  | .r90 => 1
  | .r180 => 2
  | .r270 => 3

def ShortPolicy.byte : ShortPolicy → Byte
  | .hold => 0
  | .send => 1

def classBytes (c : ClassEntry) : List Byte :=
  be16 c.rc ++ be16 c.assumedRf
    ++ [c.fit.byte, c.landscape.byte, c.portrait.byte, byteOf c.tone, byteOf c.depth, c.margin, byteOf c.level
       , byteOf c.copies, byteOf c.retries, c.short.byte]
    ++ yesByte c.breakIn ++ yesByte c.yield ++ List.replicate 16 0

/-! ### Replies (11.4, R170) -/

def Reason.byte : Reason → Byte
  | .full => 1
  | .badField => 2
  | .badPosition => 3
  | .notNow => 4
  | .unknownKind => 5

def stickyBytes (f : Sticky) : List Byte :=
  flagByte f.noticesLost ++ flagByte f.overrun ++ flagByte f.linkLostSeen ++ flagByte f.storeLost
    ++ flagByte f.configDefaulted

def setStatusBytes (s : SetStatus) : List Byte :=
  [s.state.byte] ++ keyBytes? s.key ++ be16 s.present ++ be16? s.sheetCount ++ be16 s.retakes

/-- A card's tray sequence and attempt, or none (log entry 8). -/
def cardPairBytes (c : Option (Nat × Nat)) : List Byte :=
  be16? (c.map (·.1)) ++ be16? (c.map (·.2))

/-- Table 10-4: the items of STATUS READ. -/
def statusBytes (r : StatusReport) : List Byte :=
  [r.intake.byte] ++ be16? r.intake.cause ++ [r.mode.byte]
    ++ be16 r.free ++ be16 r.filling ++ be16 r.filed ++ be16 r.queued ++ be16 r.recording ++ be16 r.offline
    ++ be16 r.deferral ++ r.sets.flatMap setStatusBytes ++ be16? r.current ++ flagByte r.passMode
    ++ [r.group.byte] ++ be16 r.groupFrames ++ be16 r.backlog ++ be16 r.entries ++ be16 r.jobs ++ be16 r.markers
    ++ cardPairBytes r.card ++ flagByte r.ready ++ be16 r.batch ++ be16 r.nextTray ++ [r.density.byte]
    ++ stickyBytes r.sticky ++ [r.lastReset.byte] ++ be16 Config.partCode.toNat
    ++ be16 r.serial1.toNat ++ be16 r.serial2.toNat ++ be16 r.station.toNat

/-- 11.4: the data of an OK reply, its items in the order the owning rule lists them. -/
def replyDataBytes : ReplyData → List Byte
  | .none => []
  | .staged n => be16 n
  | .generation g => be32 g.toNat
  | .indexEntry g e => be32 g.toNat ++ indexBytes e
  | .classEntry g c => be32 g.toNat ++ classBytes c
  | .toneEntry g ink => be32 g.toNat ++ be16 ink.toNat
  | .describeShort valid g => be16 valid ++ be16 g
  | .describeLong valid g staged hi lo => be16 valid ++ be32 g.toNat ++ be16 staged ++ be16? hi ++ be16? lo
  | .setState s => [s.byte]
  | .freed n => be16 n
  | .cancelled c => cardPairBytes c
  | .store i b => be16 i ++ be16 b
  | .mode m => [m.byte]
  | .monitor f e l on st => be16 f ++ be16 e ++ be16 l ++ flagByte on ++ [st.byte]
  | .recorder p t => be16 p ++ be16 t
  | .status r => statusBytes r
  | .flags f => stickyBytes f

/-- 11.4: a REPLY's payload. A REFUSED reply carries no data. -/
def replyPayload (r : Reply) : List Byte :=
  match r.result with
  | .ok d => [r.tag, r.code, 0, 0, 0, 0] ++ replyDataBytes d
  | .refused why => [r.tag, r.code, 1, why.byte, 0, 0]

/-- The record of a reply on the return channel. -/
def replyRecord (r : Reply) : LinkRecord := sealRecord 0x80 (replyPayload r)

/-! ### Notices (Table 11-6, Table 11-7) -/

def NoticeKind.byte : NoticeKind → Byte
  | .frameUnterminated => 0x01
  | .frameLost => 0x02
  | .supersededSkipped => 0x03
  | .floorReject => 0x04
  | .densityWarn => 0x05
  | .densityClear => 0x06
  | .missingEnd => 0x07
  | .setShort => 0x08
  | .setForced => 0x09
  | .cardRejected => 0x0A
  | .lateResponse => 0x0B
  | .recorderRestarted => 0x0C
  | .linkLost => 0x0D
  | .linkError => 0x0E
  | .paramClamped => 0x0F
  | .batchDone => 0x10

/-- Table 11-6: a NOTICE's payload; each absent item is sent as zero bytes. -/
def noticePayload (n : Notice) : List Byte :=
  [n.kind.byte, byteOf (bit n.key.isSome 1 + bit n.sheet.isSome 2 + bit n.setNo.isSome 4)] ++ be16 n.roll
    ++ be16 n.ordinal
    ++ (match n.key with
        | some k => keyBytes k
        | none => List.replicate 18 0)
    ++ [byteOf (n.sheet.getD 0), byteOf (n.setNo.getD 0)] ++ be32 n.detail

/-- The record of a notice on the return channel. -/
def noticeRecord (n : Notice) : LinkRecord := sealRecord 0x81 (noticePayload n)

/-- Table 11-7: the code of a cause. -/
def Cause.code : Cause → Nat
  | .exposure => 1
  | .feed => 2
  | .punch => 3
  | .other => 4
  | .timeout => 5
  | .restarted => 6
  | .cancelled => 7

/-- 11.5: the cause a spoil reason is. -/
def causeOfSpoil : SpoilReason → Cause
  | .exposure => .exposure
  | .feed => .feed
  | .punch => .punch
  | .other => .other

/-- Table 11-7: bits 23..16 a code, bits 15..0 a tray sequence. -/
def codedTray (code tray : Nat) : Nat := code * 65536 + tray

/-! ### Card Link messages (11.5) -/

/-- The card header record (Table 9-4), with the output depth that follows it in CARD OPEN, 0 for a separator. -/
structure CardHeader where
  number     : List Byte
  revision   : Option (Byte × Byte)
  sheet      : Nat
  sheetCount : Nat
  re         : Nat
  roll       : Nat
  ordinal    : Nat
  cls        : Nat
  copy       : Nat
  attempt    : Nat
  batch      : Nat
  tray       : Nat
  flags      : CardFlags
  depth      : Nat
deriving DecidableEq, Repr

/-- R153: a blank drawing number, 16 spaces. -/
def blankNumber : List Byte := List.replicate 16 blankCharacter

/-- CARD OPEN, 36 bytes. -/
def cardOpenRecord (h : CardHeader) : LinkRecord :=
  sealRecord 0xC0
    (h.number ++ revisionBytes h.revision ++ [byteOf h.sheet, byteOf h.sheetCount] ++ be16 h.re ++ be16 h.roll
      ++ be16 h.ordinal ++ [byteOf h.cls, byteOf h.copy, byteOf h.attempt] ++ be16 h.batch ++ be16 h.tray
      ++ be16 h.flags.word ++ [byteOf h.depth])

/-- Levels of `d` bits packed into one byte, the first in the most significant bits. -/
def packByte (d : Nat) (ls : List Byte) : Byte := byteOf (ls.foldl (fun acc l => acc * 2 ^ d + l.toNat) 0)

/-- `n` bytes of packed levels. -/
def packLevels (d : Nat) : Nat → List Byte → List Byte
  | 0, _ => []
  | n + 1, ls => packByte d (ls.take (8 / d)) :: packLevels d n (ls.drop (8 / d))

/-- CHIP LINE, 2 + 512 × d bytes. -/
def chipLineRecord (d line : Nat) (levels : List Byte) : LinkRecord :=
  sealRecord 0xC1 (be16 line ++ packLevels d (512 * d) levels)

def cardCloseRecord (tray : Nat) : LinkRecord := sealRecord 0xC2 (be16 tray)
def cardAbandonRecord (tray : Nat) : LinkRecord := sealRecord 0xC3 (be16 tray)

end Sys2Proof.Machine
end

