-- ==== Sys2Proof/Machine/State.lean ====
section
/-! DEFINITION. The state of the ZS6240, one structure for each block of Table 1-1, the reasons a command
can stop, and the state at power-on. -/

namespace Sys2Proof.Machine

/-- Why the machine stops with a fault. -/
inductive Fault where
  /-- Raised by WRITE_BURST_SERVED and READ_BURST_SERVED when the burst names a slot above 511 or a
  place beyond its slot's 16 MiB: its address lies outside the Frame Store or the slot (Table 6-1). No run from reset
  meets it. Safe. -/
  | outsideStore
deriving DecidableEq, Repr

/-- Why the machine refuses a command. -/
inductive Refusal where
  /-- Raised by an arm of exec whose row has no meaning yet. No arm raises it. Safe. -/
  | notModelled (mnemonic : String)
deriving DecidableEq, Repr

/-- The Frame Link Interface (Table 10-1). The store and start-up inputs to HOLD are the store mode WAKING
and the start-up state LOADING themselves (R169). -/
structure Fli where
  link      : LinkState
  fifo      : List Place
  /-- Loss marks that stand at the head, their place having left (R168). -/
  headMarks : List FilmKind
  /-- The FIFO input to HOLD (R169). -/
  holdFifo  : Bool
  /-- The HOLD state the last symbol on the return channel named (R169). -/
  holdTold  : Bool
  replies   : List Reply
  notices   : List Notice
  sending   : Option Sending
deriving DecidableEq, Repr

/-- The Management Unit (R1, R5, R6, R21, R32, Table 10-1). -/
structure Mu where
  /-- The valid positions of the active Index Table, rising; every other position is invalid (R1). -/
  index      : List (Nat × IndexEntry)
  classes    : List ClassEntry
  tones      : List (List Byte)
  generation : Word32
  staging    : List StagedWrite
  sticky     : Sticky
  lastReset  : ResetKind
  startup    : Startup
  serial1    : Word16
  serial2    : Word16
  station    : Word16
  /-- The tag of a LINK RESET taken and not complete (R176). -/
  resetTag   : Option Byte
  /-- The tag of a STORE PURGE whose reply is not yet placed (R170). -/
  purgeTag   : Option Byte
deriving DecidableEq, Repr

/-- The density monitor (Table 5-1). -/
structure Dm where
  state  : Density
  floor  : Nat
  enter  : Nat
  leave  : Nat
  enable : Bool
  last   : Option Evaluation
deriving DecidableEq, Repr

/-- The Resampler with the intake, and the GU's geometry record of the open frame (R55, R33, R35). -/
structure Rs where
  intake   : Intake
  work     : Work
  /-- The working tone copy (R33). -/
  tone     : Option (List Byte)
  geometry : Option Geometry
deriving DecidableEq, Repr

/-- The Store Controller and the Frame Store (R90, R93, R99 to R106). -/
structure Sc where
  slots       : List Slot
  /-- The turn of each bank's arbiter (R100). -/
  turns       : List BurstKind
  write       : Option WriteBurst
  read        : Option ReadBurst
  /-- The refresh timer: the interval in progress, or stopped before loading ends (R102). -/
  timer       : Option Nat
  deferral    : Nat
  refresh     : Option Refresh
  /-- A forced refresh pending or running: the refreshes it owes beyond the deferral count (R105). -/
  forced      : Option Nat
  /-- The refreshes of R103's RETAINING row that fell due while the one before them ran, and have not run yet (log
  entry 24). -/
  dues        : Nat
  mode        : StoreMode
  interval    : Nat
  banks       : Nat
  cfgInterval : Nat
  cfgBanks    : Nat
  /-- The model's own: an event of R96 has been taken since the SC last asked for a pressure release. -/
  askAgain    : Bool
  /-- The DRAM: the bytes that are not zero, addresses rising (R71; log entry 5). -/
  dram        : List Host.Cell
deriving DecidableEq, Repr

/-- The Set Assembly Unit (Table 7-1). The current set is the record that is OPEN (R115). -/
structure Sau where
  sets        : List SetRecord
  passMode    : Bool
  group       : List GroupFrame
  groupClosed : Bool
  backlog     : List BacklogItem
  /-- The model's own count of openings, from which a record takes its opening order. -/
  openings    : Nat
deriving DecidableEq, Repr

/-- The Card Scheduler (Table 8-1). -/
structure Cs where
  queue   : List Entry
  current : Option Nat
  breakIn : Option BreakIn
  /-- The attempt number of the pending retry; the card is the current job's next one or a separator (R141). -/
  retry   : Option Nat
  last    : LastCard
  /-- The model's own name for the next job. -/
  nextId  : Nat
deriving DecidableEq, Repr

/-- The Card Link Interface (Table 9-1). -/
structure Cli where
  ready    : Bool
  card     : Option Card
  /-- The response timer: stopped, or running with the timeout it started with, in milliseconds (R157). -/
  timer    : Option Nat
  /-- The failed-attempt record: tray sequence and cause (R159). -/
  failed   : Option (Nat × Cause)
  batch    : Nat
  nextTray : Nat
  pr       : Nat
  timeout  : Nat
deriving DecidableEq, Repr

/-- The whole part, the commands waiting, and what the last command sent on the two outgoing links. -/
structure State where
  /-- The commands waiting, first in, first out. -/
  pending   : List Instr
  fli       : Fli
  mu        : Mu
  dm        : Dm
  rs        : Rs
  sc        : Sc
  sau       : Sau
  cs        : Cs
  cli       : Cli
  /-- The model's own: what the last command sent on the Card Link, oldest first. -/
  cardOut   : List LinkRecord
  /-- The model's own: what left on the return channel during the last command, oldest first. -/
  returnOut : List ReturnItem
  /-- The model's own: how often the free value of R172's order has been read. -/
  freeCount : Nat
deriving DecidableEq, Repr

/-- Table 2-2: the values of every class at power-on. -/
def ClassEntry.powerOn : ClassEntry where
  rc := 240
  assumedRf := 240
  fit := .shrink
  landscape := .r0
  portrait := .r90
  tone := 1
  depth := 1
  margin := 0
  level := 1
  copies := 1
  retries := 2
  short := .hold
  breakIn := false
  yield := true

/-- R32: the identity table. -/
def identityTone : List Byte := (List.range 256).map (BitVec.ofNat 8)

/-- R32: the inverse table. -/
def inverseTone : List Byte := (List.range 256).map (fun i => BitVec.ofNat 8 (255 - i))

/-- R113: the fields of an EMPTY set record. -/
def SetRecord.blank : SetRecord where
  state := .empty
  title := none
  short := false
  spill := false
  retakes := 0
  opening := none
  sheets := List.replicate Config.sheetPositions .empty

/-- R90, R93: every slot of the first `banks` banks FREE, every other slot OFFLINE. -/
def emptySlots (banks : Nat) : List Slot :=
  List.replicate (Config.slotsPerBank * banks) .free
    ++ List.replicate (Config.slotsPerBank * (Config.bankCount - banks)) .offline

/-- R100: every arbiter's turn READ. -/
def readTurns : List BurstKind := List.replicate Config.bankCount .read

/-- R133: the SAU at power-on. -/
def Sau.blank : Sau where
  sets := List.replicate Config.setCount .blank
  passMode := false
  group := []
  groupClosed := false
  backlog := []
  openings := 0

/-- R147: the CS at power-on. -/
def Cs.blank : Cs where
  queue := []
  current := none
  breakIn := none
  retry := none
  last := .none
  nextId := 0

/-- R93: the store at power-on. The values that start-up loading brings stand at their built-in defaults until
then (log entry 3), and the DRAM reads as zero (log entry 5). -/
def Sc.powerOn : Sc where
  slots := emptySlots Config.defaultBanks
  turns := readTurns
  write := none
  read := none
  timer := none
  deferral := 0
  refresh := none
  forced := none
  dues := 0
  mode := .active
  interval := Config.defaultInterval
  banks := Config.defaultBanks
  cfgInterval := Config.defaultInterval
  cfgBanks := Config.defaultBanks
  askAgain := false
  dram := []

/-- The part right after power-on: loading has begun (R177, Tables 5-1, 6-5, 8-1, 9-1, 10-1; R1, R5, R6,
R21, R32, R33, R35, R55, R113, R116, R117). -/
def State.reset : State where
  pending := []
  fli :=
    { link := .down, fifo := [], headMarks := [], holdFifo := false, holdTold := true
      replies := [], notices := [], sending := none }
  mu :=
    { index := [], classes := List.replicate Config.classCount .powerOn
      tones := identityTone :: inverseTone :: List.replicate 6 identityTone
      generation := 0, staging := [], sticky := {}, lastReset := .power, startup := .loading
      serial1 := 0, serial2 := 0, station := 0, resetTag := none, purgeTag := none }
  dm :=
    { state := .normal, floor := Config.defaultFloor, enter := Config.defaultEnter
      leave := Config.defaultLeave, enable := true, last := none }
  rs := { intake := .idle, work := .none, tone := none, geometry := none }
  sc := .powerOn
  sau := .blank
  cs := .blank
  cli :=
    { ready := false, card := none, timer := none, failed := none, batch := 1, nextTray := 1
      pr := Config.defaultDotPitch, timeout := Config.defaultTimeout }
  cardOut := []
  returnOut := []
  freeCount := 0

end Sys2Proof.Machine
end

