-- ==== Sys2Proof/Machine/Ops.lean ====
section
/-! DEFINITION. The operations every command is built from on the FLI and the MU: raising a notice, placing a
reply, taking the head of the intake FIFO, HOLD and the return-channel arbiter (R56, R167 to R173). -/

namespace Sys2Proof.Machine

/-- A command begins: what the command before it sent is no longer its own. -/
def fresh (s : State) : State := { s with cardOut := [], returnOut := [] }

/-! ### Notices and replies (R170 to R172) -/

/-- R172: a notice joins the queue's tail, or is dropped with NOTICES_LOST when the queue holds 32. -/
def raiseNotice (n : Notice) (s : State) : State :=
  if s.fli.notices.length < Config.noticePlaces then
    { s with fli := { s.fli with notices := s.fli.notices ++ [n] } }
  else { s with mu := { s.mu with sticky := { s.mu.sticky with noticesLost := true } } }

/-- R170: a reply joins the buffer's tail. -/
def placeReply (tag code : Byte) (r : ReplyResult) (s : State) : State :=
  { s with fli := { s.fli with replies := s.fli.replies ++ [{ tag := tag, code := code, result := r }] } }

/-! ### The intake FIFO (R167, R168) -/

/-- What stands at the head: a loss mark whose place has left, or the place at the head (R168). -/
def headItem (f : Fli) : Option Content :=
  match f.headMarks with
  | k :: _ => some (.loss k)
  | [] =>
    match f.fifo with
    | p :: _ => some p.content
    | [] => none

/-- What stands at the head leaves it; the marks of a place that leaves then stand at the head (R168), and the
FIFO input to HOLD is withdrawn when the occupancy falls to 16 (R169). -/
def takeHead (f : Fli) : Fli :=
  match f.headMarks with
  | _ :: ks => { f with headMarks := ks }
  | [] =>
    match f.fifo with
    | p :: ps =>
      { f with fifo := ps, headMarks := p.marks, holdFifo := if ps.length = Config.releaseAt then false else f.holdFifo }
    | [] => f

/-- A place joins the tail; the FIFO input to HOLD is asserted when the occupancy rises to 48 (R167, R169). -/
def pushPlace (c : Content) (f : Fli) : Fli :=
  { f with
    fifo := f.fifo ++ [{ content := c, marks := [] }]
    holdFifo := if f.fifo.length + 1 = Config.holdAt then true else f.holdFifo }

/-- A loss mark is attached to the place at the tail (R168). -/
def markTail (k : FilmKind) : List Place → List Place
  | [] => []
  | [p] => [{ p with marks := p.marks ++ [k] }]
  | p :: q :: ps => p :: markTail k (q :: ps)

/-- The head leaves the FIFO. -/
def popHead (s : State) : State := { s with fli := takeHead s.fli }

/-! ### When a record may be taken (R56, R101, R167, R170, R176) -/

/-- R170: the MU may take a management record at the head. -/
def mgmtReady (s : State) : Bool :=
  s.mu.startup == .running && s.fli.replies.length < Config.replyPlaces && s.mu.resetTag.isNone && s.mu.purgeTag.isNone

/-- R56: the intake is WAITING. -/
def Intake.waiting : Intake → Bool
  | .waitSlot _ | .waitReservation _ | .waitTarget _ => true
  | .idle | .receiving _ | .discarding .. => false

/-- R56, R101: the intake has finished with the record before, no write burst waits or is active, and no LINK RESET
is in progress (R176). -/
def filmReady (s : State) : Bool :=
  s.mu.startup == .running && s.mu.resetTag.isNone && !s.rs.intake.waiting && s.rs.work == .none && s.sc.write.isNone

/-- The management record at the head that the MU may take now: its tag and body. -/
def mgmtHead (s : State) : Option (Byte × MgmtBody) :=
  if mgmtReady s then
    match headItem s.fli with
    | some (.mgmt tag b) => some (tag, b)
    | _ => none
  else none

/-- The film record or loss indication at the head that the intake may take now. -/
def filmHead (s : State) : Option Content :=
  if filmReady s then
    match headItem s.fli with
    | some (.film r) => some (.film r)
    | some (.loss k) => some (.loss k)
    | _ => none
  else none

/-! ### HOLD and the arbiter (R169, R173) -/

/-- R169: the HOLD state, asserted when any of its three inputs is. -/
def holdState (s : State) : Bool := s.fli.holdFifo || s.sc.mode == .waking || s.mu.startup == .loading

/-- R169: at a boundary between records a change of the HOLD state is sent as a symbol. -/
def sendSymbol (s : State) : State :=
  if s.fli.link = .up ∧ s.fli.sending = none ∧ holdState s ≠ s.fli.holdTold then
    { s with
      fli := { s.fli with holdTold := holdState s }
      returnOut := s.returnOut ++ [.symbol (holdState s)] }
  else s

/-- R173: a free channel starts the reply at the head, or else the notice at the head. -/
def arbitrate (s : State) : State :=
  if s.fli.link = .up ∧ s.fli.sending = none then
    if s.fli.replies ≠ [] then { s with fli := { s.fli with sending := some .reply } }
    else if s.fli.notices ≠ [] then { s with fli := { s.fli with sending := some .notice } }
    else s
  else s

/-- The end of a command on the return channel: a symbol first, then the arbiter. -/
def channel (s : State) : State := arbitrate (sendSymbol s)

end Sys2Proof.Machine
end

