-- ==== Sys2Proof/Machine/Memory.lean ====
section
/-! DEFINITION. The DRAM of the Frame Store: 8 GiB of bytes, one byte for each dot of a chip (log entry 5). -/

namespace Sys2Proof.Machine

/-- The byte at an address. A byte that is not listed reads as zero (log entry 5). -/
def dramRead (m : List Host.Cell) (a : Nat) : Byte :=
  match m.find? (fun c => c.1 == a) with
  | some c => c.2
  | none => 0

/-- The cells of a run of bytes from an address on, zeros left out. -/
def runCells (base : Nat) : List Byte → List Host.Cell
  | [] => []
  | v :: vs => if v = 0 then runCells (base + 1) vs else (base, v) :: runCells (base + 1) vs

/-- The memory with a run of bytes written from an address on. -/
def dramWriteRun (m : List Host.Cell) (base : Nat) (vs : List Byte) : List Host.Cell :=
  m.filter (fun c => c.1 < base) ++ runCells base vs ++ m.filter (fun c => base + vs.length ≤ c.1)

/-- Addresses strictly rising from `lo` on, below the store's end, and no byte zero. -/
def dramWfFrom (lo : Nat) : List Host.Cell → Bool
  | [] => true
  | c :: cs => lo ≤ c.1 && c.1 < Config.storeBytes && c.2 != 0 && dramWfFrom (c.1 + 1) cs

/-- The canonical form of the memory. -/
def dramWf (m : List Host.Cell) : Bool := dramWfFrom 0 m

/-- The address of the dot in a column of a row of a slot (Table 6-1; the layout inside a slot is log entry 5). -/
def dotAddress (slot row column : Nat) : Nat := slot * Config.slotBytes + row * Config.chipColumns + column

/-- Rows `first`, `first + 1`, … of a slot, each written whole (R71). -/
def writeRows (slot first : Nat) : List (List Byte) → List Host.Cell → List Host.Cell
  | [], m => m
  | r :: rs, m => writeRows slot (first + 1) rs (dramWriteRun m (dotAddress slot first 0) r)

/-- One whole column of a slot, from a row downward (R71). -/
def writeColumn (slot column : Nat) : Nat → List Byte → List Host.Cell → List Host.Cell
  | _, [], m => m
  | row, v :: vs, m => writeColumn slot column (row + 1) vs (dramWriteRun m (dotAddress slot row column) [v])

/-- Columns `first`, `first + 1`, … of a slot, each written whole (R71). -/
def writeColumns (slot first : Nat) : List (List Byte) → List Host.Cell → List Host.Cell
  | [], m => m
  | c :: cs, m => writeColumns slot (first + 1) cs (writeColumn slot first 0 c m)

/-- R71: the dots a write burst writes. -/
def writeBurstDots (b : WriteBurst) (m : List Host.Cell) : List Host.Cell :=
  match b.axis with
  | .rows => writeRows b.slot b.first b.lines m
  | .columns => writeColumns b.slot b.first b.lines m

/-- The places a slot of 16 MiB has room for: 4,096 rows of 4,096 bytes each (Table 6-1, log entry 5). -/
def slotSide : Nat := 4096

/-- The write burst stays inside its slot, and the slot inside the store (Table 6-1). -/
def writeFits (b : WriteBurst) : Bool :=
  b.slot < Config.slotCount && b.first + b.lines.length ≤ slotSide && b.lines.all (fun l => l.length ≤ slotSide)

/-- The row read stays inside its slot, and the slot inside the store (Table 6-1). -/
def readFits (slot row : Nat) : Bool := slot < Config.slotCount && row < slotSide

/-- R99: the 4,096 levels of one raster row of a slot. -/
def readRow (m : List Host.Cell) (slot row : Nat) : List Byte :=
  (List.range Config.chipColumns).map (fun c => dramRead m (dotAddress slot row c))

end Sys2Proof.Machine
end

