-- ==== Sys2Proof/Machine/Store.lean ====
section
/-! DEFINITION. The Store Controller's own operations: the slot table, allocation, the bank arbiters and refresh
(R90 to R105). Each is a function of the SC alone. -/

namespace Sys2Proof.Machine

/-! ### The slot table (R90 to R92, R98) -/

/-- R90: the bank of a slot. -/
def bankOf (slot : Nat) : Nat := slot / Config.slotsPerBank

def slotAt (sc : Sc) (n : Nat) : Slot := sc.slots.getD n .offline

def setSlot (n : Nat) (v : Slot) (sc : Sc) : Sc := { sc with slots := sc.slots.set n v }

/-- The chip a slot holds. -/
def chipAt (sc : Sc) (n : Nat) : Option Chip :=
  match slotAt sc n with
  | .held _ c => some c
  | .free | .offline => none

def Slot.isFree : Slot → Bool
  | .free => true
  | .offline | .held .. => false

def Slot.isOffline : Slot → Bool
  | .offline => true
  | .free | .held .. => false

def Slot.inState (k : ChipState) : Slot → Bool
  | .held st _ => st == k
  | .free | .offline => false

/-- R98: a slot given back; its fields are cleared. A slot of a bank not enabled is OFFLINE (R90). -/
def freeSlot (n : Nat) (sc : Sc) : Sc := setSlot n (if bankOf n < sc.banks then .free else .offline) sc

/-- R91, R92: a chip's slot passes from one state to another; a request for a slot in another state is not
carried out. -/
def moveSlot (n : Nat) (before after : ChipState) (change : Chip → Chip) (sc : Sc) : Sc :=
  match slotAt sc n with
  | .held st c => if st = before then setSlot n (.held after (change c)) sc else sc
  | .free | .offline => sc

/-- The chip of a slot is changed, its state standing. -/
def changeChip (n : Nat) (change : Chip → Chip) (sc : Sc) : Sc :=
  match slotAt sc n with
  | .held st c => setSlot n (.held st (change c)) sc
  | .free | .offline => sc

/-- R90: how many slots are in a state. -/
def countSlots (p : Slot → Bool) (sc : Sc) : Nat := sc.slots.countP p

/-- R95: some slot is QUEUED or RECORDING, so the card path will free one. -/
def cardPathHolds (sc : Sc) : Bool := sc.slots.any (fun x => x.inState .queued || x.inState .recording)

/-- The slots of a bank. -/
def bankSlots (sc : Sc) (b : Nat) : List Slot := (sc.slots.drop (Config.slotsPerBank * b)).take Config.slotsPerBank

/-- R90, R111, R112: banks are enabled or dropped. FREE slots of the dropped banks become OFFLINE and slots of the
added banks become FREE. -/
def applyBanks (n : Nat) (sc : Sc) : Sc :=
  { sc with
    banks := n
    slots := sc.slots.zipIdx.map (fun p =>
      match p.1 with
      | .free => if bankOf p.2 < n then .free else .offline
      | .offline => if bankOf p.2 < n then .free else .offline
      | .held st c => .held st c) }

/-! ### Allocation (R94) -/

def freeInBank (sc : Sc) (b : Nat) : Nat := (bankSlots sc b).countP Slot.isFree

/-- R94: the enabled banks that hold a FREE slot. -/
def candidateBanks (sc : Sc) : List Nat :=
  (List.range Config.bankCount).filter (fun b => b < sc.banks && 0 < freeInBank sc b)

/-- R94 step 1: the bank of the card in flight is left out unless it is the only candidate. -/
def excludeBank (card : Option Nat) (cands : List Nat) : List Nat :=
  match card with
  | some b =>
    let rest := cands.filter (fun x => x != b)
    if rest = [] then cands else rest
  | none => cands

/-- R94 step 2: the bank with the most FREE slots, the lowest-numbered of equals. -/
def bestBank (sc : Sc) : List Nat → Option Nat
  | [] => none
  | b :: bs =>
    match bestBank sc bs with
    | none => some b
    | some c => if freeInBank sc c ≤ freeInBank sc b then some b else some c

/-- R94: the slot granted, or none (R95). `cardSlot` is the slot of the card in flight. -/
def chooseSlot (sc : Sc) (cardSlot : Option Nat) : Option Nat :=
  match bestBank sc (excludeBank (cardSlot.map bankOf) (candidateBanks sc)) with
  | none => none
  | some b => some (Config.slotsPerBank * b + (bankSlots sc b).findIdx Slot.isFree)

/-! ### Bursts (R99, R100) -/

def burstPresent (sc : Sc) : Bool := sc.write.isSome || sc.read.isSome

def burstActive (sc : Sc) : Bool :=
  (match sc.write with
   | some w => w.active
   | none => false)
  || (match sc.read with
      | some r => r.active
      | none => false)

def grantWrite (sc : Sc) : Sc := { sc with write := sc.write.map (fun w => { w with active := true }) }
def grantRead (sc : Sc) : Sc := { sc with read := sc.read.map (fun r => { r with active := true }) }

/-- R100: every bank that is free grants a waiting burst. Where a write and a read both wait for one bank its turn
decides, and then names the other kind. -/
def grantBursts (sc : Sc) : Sc :=
  match sc.write, sc.read with
  | some w, some r =>
    if bankOf w.slot = bankOf r.slot then
      if w.active || r.active then sc
      else match sc.turns.getD (bankOf w.slot) .read with
        | .read => grantRead { sc with turns := sc.turns.set (bankOf w.slot) .write }
        | .write => grantWrite { sc with turns := sc.turns.set (bankOf w.slot) .read }
    else grantRead (grantWrite sc)
  | some _, none => grantWrite sc
  | none, some _ => grantRead sc
  | none, none => sc

/-! ### Refresh (R102 to R105) -/

/-- With no refresh running and none forced: waiting bursts are granted while the store is ACTIVE (R99), or, when no
burst is waiting or active, a run of deferred refreshes goes on (R104); then come the refreshes that fell due in
RETAINING and have not run (R103; log entry 24). -/
def storeIdle (sc : Sc) : Sc :=
  if burstPresent sc then
    if sc.mode = .active then grantBursts sc else sc
  else if sc.mode ≠ .retaining ∧ 0 < sc.deferral then { sc with refresh := some .deferred }
  else if 0 < sc.dues then { sc with refresh := some .due, dues := sc.dues - 1 }
  else sc

/-- What the SC does next by itself: nothing while a refresh runs; the next refresh of a forced refresh once no burst
is active (R105); otherwise as `storeIdle`. -/
def storeSettle (sc : Sc) : Sc :=
  if sc.refresh.isSome then sc
  else match sc.forced with
    | some owed =>
      if burstActive sc then sc
      else if 0 < sc.deferral then { sc with refresh := some .deferred }
      else if 0 < owed then { sc with refresh := some .owed }
      else storeIdle { sc with forced := none }
    | none => storeIdle sc

/-- R103: a due moment in ACTIVE or WAKING. -/
def dueMoment (sc : Sc) : Sc :=
  match sc.forced with
  | some owed => { sc with forced := some (owed + 1) }
  | none =>
    if sc.refresh.isSome || burstPresent sc then
      if sc.deferral < Config.deferralLimit then { sc with deferral := sc.deferral + 1 }
      else storeSettle { sc with forced := some 1 }
    else { sc with refresh := some .due }

/-- R103, R108: a due moment; in RETAINING it runs one refresh, behind one that is still running (log entry 24), and the
count stands. That it runs one in RETAINING also when no bank is powered is the model's choice (log entry 40). The interval stored now is the one that runs from here on (R102). -/
def refreshDueStep (sc : Sc) : Sc :=
  match sc.timer with
  | none => sc
  | some _ =>
    let sc1 := { sc with timer := some sc.interval }
    if sc.mode = .retaining then
      if sc.refresh.isSome then { sc1 with dues := sc.dues + 1 } else { sc1 with refresh := some .due }
    else dueMoment sc1

/-- R104, R105: the refresh that is running ends, and what it was owed to falls by one. That a deferred refresh which LINK
RESET found running still takes 1 from the count, now the count of due moments after the reset, is the model's choice (log
entry 39). -/
def endRefresh (sc : Sc) : Sc :=
  match sc.refresh with
  | none => sc
  | some .due => { sc with refresh := none }
  | some .deferred => { sc with refresh := none, deferral := sc.deferral - 1 }
  | some .owed => { sc with refresh := none, forced := sc.forced.map (fun n => n - 1) }

/-- R104, R105: a refresh ends, and the next refresh runs, or waiting bursts are granted, or a forced refresh ends. -/
def refreshEndStep (sc : Sc) : Sc := if sc.refresh.isSome then storeSettle (endRefresh sc) else sc

/-- R108, Table 6-6: the bank is powered. -/
def bankPowered (sc : Sc) (b : Nat) : Bool :=
  b < sc.banks
    && match sc.mode with
       | .active | .waking => true
       | .retaining => (bankSlots sc b).any (fun x => !x.isFree && !x.isOffline)

/-- R99: the RS or the CLI asks for a burst. -/
def askWrite (b : WriteBurst) (sc : Sc) : Sc := { sc with write := some b }
def askRead (slot row : Nat) (sc : Sc) : Sc :=
  { sc with read := some { slot := slot, row := row, active := false, discard := false, release := false } }

end Sys2Proof.Machine
end

