-- ==== Sys2Proof/Machine/Sets.lean ====
section
/-! DEFINITION. The Set Assembly Unit's operations: set records, the unindexed group, the enqueue backlog and its
placing in the Card Queue, targets, pressure release and filing (R28, R113 to R130). -/

namespace Sys2Proof.Machine

/-! ### Set records (R113 to R115) -/

def setAt (sau : Sau) (n : Nat) : SetRecord := sau.sets.getD n .blank

def putSet (n : Nat) (r : SetRecord) (sau : Sau) : Sau := { sau with sets := sau.sets.set n r }

/-- The first index from `i` on at which the predicate holds. -/
def firstWhere {α : Type} (p : α → Bool) : Nat → List α → Option Nat
  | _, [] => none
  | i, x :: xs => if p x then some i else firstWhere p (i + 1) xs

def SetRecord.isOpen (r : SetRecord) : Bool := r.state == .opened

/-- R115: the current set, the record that is OPEN. -/
def currentSet (sau : Sau) : Option Nat := firstWhere SetRecord.isOpen 0 sau.sets

/-- R114: a sheet is present when its position is FILED or SPILLED. -/
def SheetPos.present : SheetPos → Bool
  | .empty => false
  | .filed .. | .spilled => true

/-- R114: the positions of the sheets 1..sheet count. -/
def countedSheets (r : SetRecord) : List SheetPos :=
  match r.title with
  | some t => r.sheets.take t.sheetCount
  | none => []

/-- R114: the sheets present. -/
def sheetsPresent (r : SetRecord) : Nat := (countedSheets r).countP SheetPos.present

/-- R125: the number of missing sheets. -/
def sheetsMissing (r : SetRecord) : Nat := (countedSheets r).countP (fun p => !p.present)

/-- R125: the lowest missing sheet. -/
def lowestMissing (r : SetRecord) : Option Nat := firstWhere (fun p => !SheetPos.present p) 1 (countedSheets r)

/-- R114: every sheet 1..sheet count is present. -/
def setComplete (r : SetRecord) : Bool := (countedSheets r).all SheetPos.present

/-- The card list of a record's FILED positions, from sheet `s` on, in ascending order (R129, R130). -/
def filedCards : Nat → List SheetPos → List CardPos
  | _, [] => []
  | s, .filed slot roll ordinal _ :: ps =>
    { slot := slot, sheet := s, roll := roll, ordinal := ordinal } :: filedCards (s + 1) ps
  | s, .empty :: ps => filedCards (s + 1) ps
  | s, .spilled :: ps => filedCards (s + 1) ps

def setCards (r : SetRecord) : List CardPos := filedCards 1 r.sheets

/-- R116: the state of the unindexed group. -/
def groupState (sau : Sau) : GroupState :=
  if sau.group = [] then .empty else if sau.groupClosed then .closed else .collecting

/-- The HELD record of the earliest opening order among those the predicate admits. -/
def oldestHeld (p : Nat → SetRecord → Bool) : Nat → List SetRecord → Option (Nat × Nat)
  | _, [] => none
  | i, r :: rs =>
    let rest := oldestHeld p (i + 1) rs
    if r.state == .held && p i r then
      match rest with
      | some (o, j) => if o < r.opening.getD 0 then some (o, j) else some (r.opening.getD 0, i)
      | none => some (r.opening.getD 0, i)
    else rest

/-- A set record changes state: one of the events of R96 after which the SC asks again. -/
def changeSet (n : Nat) (r : SetRecord) (s : State) : State :=
  { s with sau := putSet n r s.sau, sc := { s.sc with askAgain := true } }

/-- R113: the record becomes EMPTY. -/
def emptySet (n : Nat) (s : State) : State := changeSet n .blank s

def joinBacklog (x : BacklogItem) (s : State) : State :=
  { s with sau := { s.sau with backlog := s.sau.backlog ++ [x] } }

/-- R117, R125: the record becomes CLOSED and joins the backlog, or becomes EMPTY at once when it holds no FILED
position. -/
def closeSet (n : Nat) (short : Bool) (s : State) : State :=
  let r := setAt s.sau n
  if setCards r = [] then emptySet n s
  else joinBacklog (.set n) (changeSet n { r with state := .closed, short := short } s)

/-- R117: the group becomes CLOSED and joins the backlog. -/
def closeGroup (s : State) : State :=
  joinBacklog .group { s with sau := { s.sau with groupClosed := true } }

/-! ### The Card Queue's entries (R118, R135, R136) -/

/-- R118: an entry is free. -/
def entryFree (s : State) : Bool := s.cs.queue.length < Config.queueEntries

def enqueue (e : Entry) (s : State) : State := { s with cs := { s.cs with queue := s.cs.queue ++ [e] } }

/-- R96: a Card Queue entry has become free. -/
def noteEntryFreed (s : State) : State := { s with sc := { s.sc with askAgain := true } }

def Entry.isReservation : Entry → Bool
  | .reservation => true
  | .job _ | .marker => false

/-- The queue without its first reservation. -/
def dropReservation : List Entry → List Entry
  | [] => []
  | e :: es => if e.isReservation then es else e :: dropReservation es

/-- R124, R136: a job formed in a reservation keeps its place. -/
def fillReservation (e : Entry) : List Entry → List Entry
  | [] => []
  | x :: xs => if x.isReservation then e :: xs else x :: fillReservation e xs

/-- R78, R136: the reservation of an aborted frame leaves the queue. -/
def releaseReservation (s : State) : State :=
  if s.cs.queue.any Entry.isReservation then
    noteEntryFreed { s with cs := { s.cs with queue := dropReservation s.cs.queue } }
  else s

/-! ### Forming jobs (R28, R92, R129, R130) -/

/-- The active class of a number. -/
def classAt (mu : Mu) (n : Nat) : ClassEntry := mu.classes.getD n .powerOn

/-- R92: each slot of a card list becomes QUEUED with the job and its position, from `pos` on, as owner. -/
def queueSlots (id : Nat) : Nat → List CardPos → Sc → Sc
  | _, [], sc => sc
  | pos, c :: cs, sc =>
    queueSlots id (pos + 1) cs (moveSlot c.slot .filed .queued (fun k => { k with owner := .job id pos }) sc)

/-- A job as it is formed: copies and retries captured from the active class now, progress at position 1, copy 1
(R28, R137). -/
def formJob (s : State) (kind : JobKind) (cls : Nat) (key : Option DrawingKey) (count : Option Nat)
    (cards : List CardPos) (short spill : Bool) : Job where
  id := s.cs.nextId
  kind := kind
  cls := cls
  key := key
  sheetCount := count
  cards := cards
  copies := (classAt s.mu cls).copies
  retries := (classAt s.mu cls).retries
  short := short
  spill := spill
  nextPos := 0
  nextCopy := 1

/-- The slots of a formed job become QUEUED and its name is used up. -/
def takeJob (j : Job) (s : State) : State :=
  { s with sc := queueSlots j.id 1 j.cards s.sc, cs := { s.cs with nextId := s.cs.nextId + 1 } }

/-- A job is placed at the tail of the Card Queue. -/
def placeJob (j : Job) (s : State) : State := enqueue (.job j) (takeJob j s)

/-- R130: a CLOSED record is placed as a SET job and becomes EMPTY. -/
def placeSet (n : Nat) (s : State) : State :=
  let r := setAt s.sau n
  let job := formJob s .set ((r.title.map Title.cls).getD 0) (r.title.map Title.key) (r.title.map Title.sheetCount)
    (setCards r) r.short r.spill
  emptySet n (placeJob job s)

/-- The card list of the group's frames, from a position on. -/
def groupCards : Nat → List GroupFrame → List CardPos
  | _, [] => []
  | i, g :: gs => { slot := g.slot, sheet := i, roll := g.roll, ordinal := g.ordinal } :: groupCards (i + 1) gs

/-- R130: the CLOSED group is placed and becomes EMPTY. -/
def placeGroup (s : State) : State :=
  let s1 := placeJob (formJob s .unindexedGroup 0 none none (groupCards 1 s.sau.group) false false) s
  { s1 with sau := { s1.sau with group := [], groupClosed := false }, sc := { s1.sc with askAgain := true } }

def SheetPos.spillOut : SheetPos → SheetPos
  | .filed .. => .spilled
  | .empty => .empty
  | .spilled => .spilled

/-- R129: a spill request is carried out, or dropped. -/
def placeSpill (n opening : Nat) (s : State) : State :=
  let r := setAt s.sau n
  if r.state = .opened ∧ r.opening = some opening ∧ setCards r ≠ [] then
    let job := formJob s .partialSet ((r.title.map Title.cls).getD 0) (r.title.map Title.key)
      (r.title.map Title.sheetCount) (setCards r) false true
    let s1 := placeJob job s
    { s1 with sau := putSet n { r with sheets := r.sheets.map SheetPos.spillOut, spill := true } s1.sau }
  else s

/-- R127: the batch marker is placed, which completes a BATCH END that waits for it. -/
def placeMarker (s : State) : State :=
  let s1 := enqueue .marker s
  match s1.rs.intake with
  | .waitTarget _ => { s1 with rs := { s1.rs with intake := .idle } }
  | .idle | .receiving _ | .discarding .. | .waitSlot _ | .waitReservation _ => s1

/-- R118: the item at the head leaves the backlog and is placed. -/
def placeItem (x : BacklogItem) (s : State) : State :=
  match x with
  | .set n => placeSet n s
  | .group => placeGroup s
  | .spill n o => placeSpill n o s
  | .marker => placeMarker s

def placeHead (s : State) : State :=
  match s.sau.backlog with
  | [] => s
  | x :: xs => placeItem x { s with sau := { s.sau with backlog := xs } }

/-- R118: the backlog is served while an entry is free, for at most `n` items. -/
def serveBacklog : Nat → State → State
  | 0, s => s
  | n + 1, s => if s.sau.backlog ≠ [] ∧ entryFree s = true then serveBacklog n (placeHead s) else s

/-- R118: the backlog is served as far as the entries allow. -/
def drainBacklog (s : State) : State := serveBacklog s.sau.backlog.length s

/-! ### Targets (R125 to R127) -/

/-- A notice of the SAU. -/
def setNotice (kind : NoticeKind) (roll ordinal : Nat) (key : Option DrawingKey) (sheet : Option Nat) (n detail : Nat) :
    Notice :=
  { kind := kind, roll := roll, ordinal := ordinal, key := key, sheet := sheet, setNo := some n, detail := detail }

/-- R125: a record is ended as by END. -/
def endSet (n roll ordinal : Nat) (s : State) : State :=
  let r := setAt s.sau n
  match r.title with
  | none => emptySet n s
  | some t =>
    if setComplete r then closeSet n false s
    else
      let note := setNotice .setShort roll ordinal (some t.key) (lowestMissing r) n (sheetsMissing r)
      match (classAt s.mu t.cls).short with
      | .hold => raiseNotice note (changeSet n { r with state := .held, short := true } s)
      | .send => raiseNotice note (closeSet n true s)

def setPassMode (b : Bool) (s : State) : State := { s with sau := { s.sau with passMode := b } }

/-- R125: END. -/
def endTargetOp (t : Target) (s : State) : State :=
  match currentSet s.sau with
  | none => setPassMode false s
  | some n => setPassMode false (drainBacklog (endSet n t.roll t.ordinal s))

/-- R126 step 2: the lowest-numbered EMPTY record, opened. -/
def openRecord (n : Nat) (s : State) : State :=
  let s1 := changeSet n { SetRecord.blank with state := .opened, opening := some s.sau.openings } s
  { s1 with sau := { s1.sau with openings := s1.sau.openings + 1, passMode := false } }

def SetRecord.isEmpty (r : SetRecord) : Bool := r.state == .empty

def emptyRecord (sau : Sau) : Option Nat := firstWhere SetRecord.isEmpty 0 sau.sets

/-- R126 step 3, R128 step 1: a HELD record is forced out, with SET_FORCED. -/
def forceOut (n roll ordinal detail : Nat) (s : State) : State :=
  let r := setAt s.sau n
  raiseNotice (setNotice .setForced roll ordinal (r.title.map Title.key) (lowestMissing r) n detail) (closeSet n true s)

/-- R126 steps 2 to 4. That step 2 is taken also with a forced-out record whose every take was spilled, which is EMPTY at once
and not placed (R125), is the model's choice (log entry 41). -/
def openOrForce (t : Target) (s : State) : State :=
  match emptyRecord s.sau with
  | some n => openRecord n s
  | none =>
    match oldestHeld (fun _ _ => true) 0 s.sau.sets with
    | none => setPassMode true s
    | some (_, n) =>
      let s1 := drainBacklog (forceOut n t.roll t.ordinal 1 s)
      match emptyRecord s1.sau with
      | some m => openRecord m s1
      | none => setPassMode true s1

/-- R126: START. -/
def startTargetOp (t : Target) (s : State) : State :=
  match currentSet s.sau with
  | none => openOrForce t s
  | some n =>
    let r := setAt s.sau n
    let note := setNotice .missingEnd t.roll t.ordinal (r.title.map Title.key) none n (sheetsPresent r)
    openOrForce t (drainBacklog (endSet n t.roll t.ordinal (raiseNotice note s)))

/-- R127 steps 1 to 4: BATCH END up to its marker's joining the backlog. -/
def endBatch (t : Target) (s : State) : State :=
  let s1 := match currentSet s.sau with
    | none => s
    | some n => endSet n t.roll t.ordinal s
  let s2 := setPassMode false s1
  let s3 := if groupState s2.sau = .collecting then closeGroup s2 else s2
  joinBacklog .marker s3

/-- R64, R127: BATCH END waits until its marker has been placed. -/
def batchEndOp (t : Target) (s : State) : State :=
  let s1 := endBatch t s
  drainBacklog { s1 with rs := { s1.rs with intake := .waitTarget t } }

/-- R77: the SAU carries out a target; the intake is IDLE, or WAITING at a BATCH END. -/
def targetOp (t : Target) (s : State) : State :=
  let s1 := { s with rs := { s.rs with intake := .idle } }
  match t.kind with
  | .start => startTargetOp t s1
  | .endSet => endTargetOp t s1
  | .batchEnd => batchEndOp t s1

/-! ### Pressure release (R96, R128) -/

/-- The destination of a waiting frame is this record. -/
def Destination.isSet (d : Destination) (n : Nat) : Bool :=
  match d with
  | .set m => m == n
  | .group | .passThrough => false

def BacklogItem.isSpillOf (n : Nat) : BacklogItem → Bool
  | .spill m _ => m == n
  | .set _ | .group | .marker => false

/-- R128 step 3. -/
def requestSpill (s : State) : State :=
  match currentSet s.sau with
  | none => s
  | some n =>
    let r := setAt s.sau n
    if setCards r ≠ [] ∧ s.sau.backlog.any (BacklogItem.isSpillOf n) = false then
      joinBacklog (.spill n (r.opening.getD 0)) s
    else s

/-- R128: the first release that applies, for the waiting frame. -/
def pressureRelease (f : FrameCtx) (s : State) : State :=
  match oldestHeld (fun i _ => !f.dest.isSet i) 0 s.sau.sets with
  | some (_, n) => forceOut n f.roll f.ordinal 2 s
  | none =>
    if groupState s.sau = .collecting ∧ f.dest ≠ .group then closeGroup s
    else requestSpill s

/-! ### Destinations (R119, R120) -/

def titleKeyIs (k : DrawingKey) (r : SetRecord) : Bool :=
  match r.title with
  | some t => t.key == k
  | none => false

/-- R119 steps 1 and 2: the current set takes a frame of this key. -/
def currentTakes (k : DrawingKey) (sau : Sau) : Option Nat :=
  match currentSet sau with
  | some n => if (setAt sau n).title.isNone || titleKeyIs k (setAt sau n) then some n else none
  | none => none

/-- R119, R120: the destination of a frame. -/
def destinationOf (entry : Option Matched) (sau : Sau) : Destination :=
  match entry with
  | some m =>
    match currentTakes m.key sau with
    | some n => .set n
    | none =>
      match oldestHeld (fun _ r => titleKeyIs m.key r) 0 sau.sets with
      | some (_, n) => .set n
      | none => .passThrough
  | none => if groupState sau = .closed then .passThrough else .group

/-! ### Filing (R121 to R124) -/

/-- R91: the frame's slot becomes FILED with its owner and the flags the SAU enters. -/
def fileSlot (slot : Nat) (owner : Owner) (enter : CardFlags → CardFlags) (sc : Sc) : Sc :=
  moveSlot slot .filling .filed (fun c => { c with owner := owner, flags := enter c.flags }) sc

/-- The flags now in a slot record. -/
def flagsAt (sc : Sc) (slot : Nat) : CardFlags := ((chipAt sc slot).map Chip.flags).getD {}

/-- R92, R121: the slot a retake replaces is given back in the same change. -/
def freeReplaced (p : SheetPos) (sc : Sc) : Sc :=
  match p with
  | .filed old _ _ _ => freeSlot old sc
  | .empty | .spilled => sc

/-- R121, R122: a frame is filed into a set record. -/
def fileIntoSet (n slot : Nat) (f : FrameCtx) (m : Matched) (s : State) : State :=
  let r := setAt s.sau n
  let title := r.title.getD { key := m.key, sheetCount := m.sheetCount, cls := m.cls }
  let before := r.sheets.getD (m.sheet - 1) .empty
  let retake := before.present
  let extra : Bool := title.sheetCount < m.sheet
  let sc1 := fileSlot slot (.set n m.sheet) (fun g => { g with retake := g.retake || retake, extra := g.extra || extra })
    (freeReplaced before s.sc)
  let r1 : SetRecord :=
    { r with
      title := some title
      sheets := r.sheets.set (m.sheet - 1) (.filed slot f.roll f.ordinal (flagsAt sc1 slot))
      retakes := if retake then min 65535 (r.retakes + 1) else r.retakes }
  let s1 := { s with sc := sc1, sau := putSet n r1 s.sau }
  if r.state = .held ∧ setComplete r1 = true then closeSet n false s1 else s1

/-- R123: a frame is filed into the unindexed group. -/
def fileIntoGroup (slot : Nat) (f : FrameCtx) (s : State) : State :=
  let sc1 := fileSlot slot (.group (s.sau.group.length + 1)) (fun g => { g with unindexed := true }) s.sc
  let frame : GroupFrame := { slot := slot, roll := f.roll, ordinal := f.ordinal, flags := flagsAt sc1 slot }
  let s1 := { s with sc := sc1, sau := { s.sau with group := s.sau.group ++ [frame] } }
  if s1.sau.group.length = Config.groupFrames then closeGroup s1 else s1

/-- R124: a pass-through's job is formed in its reservation. -/
def filePassThrough (slot : Nat) (f : FrameCtx) (s : State) : State :=
  let enter : CardFlags → CardFlags := fun g =>
    { g with uncollated := true, unindexed := g.unindexed || f.entry.isNone }
  let s1 := { s with sc := fileSlot slot .reserved enter s.sc }
  let card : CardPos :=
    { slot := slot, sheet := (f.entry.map Matched.sheet).getD 0, roll := f.roll, ordinal := f.ordinal }
  let job := formJob s1 .passThrough ((f.entry.map Matched.cls).getD 0) (f.entry.map Matched.key)
    (f.entry.map Matched.sheetCount) [card] false false
  let s2 := takeJob job s1
  { s2 with cs := { s2.cs with queue := fillReservation (.job job) s2.cs.queue } }

/-- R75 step 4: the slot is FILED and filed to the frame's destination. -/
def fileFrame (f : FrameCtx) (slot : Nat) (s : State) : State :=
  match f.dest, f.entry with
  | .set n, some m => fileIntoSet n slot f m s
  | .set _, none => s
  | .group, _ => fileIntoGroup slot f s
  | .passThrough, _ => filePassThrough slot f s

end Sys2Proof.Machine
end

