-- ==== Sys2Proof/Machine/Cards.lean ====
section
/-! DEFINITION. The Card Scheduler's choice of a card and the Card Link Interface's sending of it: selection,
break-in, card opening, chip lines, the end of an attempt, late responses and batch markers (R137 to R163). -/

namespace Sys2Proof.Machine

/-! ### Jobs in the queue (R137, R139) -/

/-- The jobs that stand ahead of the first batch marker (R139). -/
def jobsAhead : List Entry → List Job
  | [] => []
  | .job j :: es => j :: jobsAhead es
  | .marker :: _ => []
  | .reservation :: es => jobsAhead es

def Entry.isJob (id : Nat) : Entry → Bool
  | .job j => j.id == id
  | .marker | .reservation => false

/-- The job of a name. -/
def findJob (id : Nat) : List Entry → Option Job
  | [] => none
  | .job j :: es => if j.id = id then some j else findJob id es
  | .marker :: es => findJob id es
  | .reservation :: es => findJob id es

/-- The queue with one job changed. -/
def changeJob (id : Nat) (change : Job → Job) : List Entry → List Entry
  | [] => []
  | .job j :: es => (if j.id = id then .job (change j) else .job j) :: changeJob id change es
  | .marker :: es => .marker :: changeJob id change es
  | .reservation :: es => .reservation :: changeJob id change es

/-- The queue without a job; the others keep their order (R135). -/
def dropJob (id : Nat) (q : List Entry) : List Entry := q.filter (fun e => !e.isJob id)

/-- The current job. -/
def currentJob (s : State) : Option Job :=
  match s.cs.current with
  | some id => findJob id s.cs.queue
  | none => none

/-- R139: `b` is chosen before `a`, which stands ahead of it in the queue. -/
def goesBefore (mu : Mu) (b a : Job) : Bool :=
  (classAt mu a.cls).level < (classAt mu b.cls).level
    || ((classAt mu a.cls).level == (classAt mu b.cls).level && b.cls < a.cls)

/-- R139: the job chosen among candidates in queue order. -/
def bestJob (mu : Mu) : List Job → Option Job
  | [] => none
  | j :: js =>
    match bestJob mu js with
    | none => some j
    | some k => if goesBefore mu k j then some k else some j

/-- R139: the job that a selection finds. -/
def selectJob (s : State) : Option Job := bestJob s.mu (jobsAhead s.cs.queue)

/-- R144: a job that may break into the current one. -/
def mayBreakIn (mu : Mu) (current : Nat) (j : Job) : Bool :=
  j.id != current && (classAt mu j.cls).level == 3 && (classAt mu j.cls).breakIn

/-- R144: the break-in test for the current job. -/
def breakInJob (s : State) (j : Job) : Option Job :=
  if s.cs.last = .job j.id ∧ (classAt s.mu j.cls).yield = true then
    bestJob s.mu ((jobsAhead s.cs.queue).filter (mayBreakIn s.mu j.id))
  else none

/-! ### The next card (R138, R141, R145) -/

/-- The card-list position of a job's next card. -/
def nextPosition (j : Job) : Option CardPos := j.cards[j.nextPos]?

/-- The next card of a job (R137). -/
def nextChip (j : Job) : Option CardKind :=
  (nextPosition j).map (fun p => .chip j.id (j.nextPos + 1) j.nextCopy p.slot)

/-- The card that the break-in state and the current job name: a separator, or the current job's next card. -/
def presentKind (s : State) : Option CardKind :=
  match s.cs.breakIn with
  | some b =>
    match b.phase with
    | .opening => some .separatorOpen
    | .running => (currentJob s).bind nextChip
    | .closing => some .separatorClose
  | none => (currentJob s).bind nextChip

/-- R145: the break-in begins. -/
def startBreakIn (yielding urgent : Job) (s : State) : State :=
  { s with
    cs := { s.cs with
      current := some urgent.id
      breakIn := some { phase := .opening, interrupted := yielding.id, key := urgent.key, sheetCount := urgent.sheetCount
                        cls := urgent.cls, retries := urgent.retries } } }

/-- R138 steps 1 to 5: the card to hand over with its attempt, and the CS after the choice. -/
def chooseCard (s : State) : Option (State × CardKind × Nat) :=
  match s.cs.retry with
  | some attempt => (presentKind s).map (fun k => (s, k, attempt))
  | none =>
    match s.cs.breakIn with
    | some _ => (presentKind s).map (fun k => (s, k, 1))
    | none =>
      match currentJob s with
      | some j =>
        match breakInJob s j with
        | some u => some (startBreakIn j u s, .separatorOpen, 1)
        | none => (nextChip j).map (fun k => (s, k, 1))
      | none =>
        match selectJob s with
        | some j => (nextChip j).map (fun k => ({ s with cs := { s.cs with current := some j.id } }, k, 1))
        | none => none

/-! ### Sending a card (R151 to R156) -/

/-- The present store of Card Link messages with one more sent. -/
def sendCard (r : LinkRecord) (s : State) : State := { s with cardOut := s.cardOut ++ [r] }

/-- R153: the header of a chip card, from its job, its slot record and the CLI's counters. -/
def chipHeader (s : State) (job position copy slot attempt tray : Nat) : CardHeader :=
  let j := findJob job s.cs.queue
  let key := j.bind Job.key
  let chip := chipAt s.sc slot
  let flags : CardFlags := (chip.map Chip.flags).getD {}
  { number := (key.map DrawingKey.number).getD blankNumber
    revision := key.bind DrawingKey.revision
    sheet := if key.isSome then (((j.bind (fun x => x.cards[position - 1]?)).map CardPos.sheet).getD 0) else 0
    sheetCount := (j.bind Job.sheetCount).getD 0
    re := (chip.map Chip.re).getD 0
    roll := (chip.map Chip.roll).getD 0
    ordinal := (chip.map Chip.ordinal).getD 0
    cls := (j.map Job.cls).getD 0
    copy := copy
    attempt := attempt
    batch := s.cli.batch
    tray := tray
    flags := { flags with shortSet := (j.map Job.short).getD false, spill := (j.map Job.spill).getD false }
    depth := (chip.map Chip.depth).getD 0 }

/-- R153: the header of a separator card. -/
def separatorHeader (s : State) (flags : CardFlags) (attempt tray : Nat) : CardHeader :=
  let b := s.cs.breakIn
  let key := b.bind BreakIn.key
  { number := (key.map DrawingKey.number).getD blankNumber
    revision := key.bind DrawingKey.revision
    sheet := 0
    sheetCount := (b.bind BreakIn.sheetCount).getD 0
    re := 0
    roll := 0
    ordinal := 0
    cls := (b.map BreakIn.cls).getD 0
    copy := 1
    attempt := attempt
    batch := s.cli.batch
    tray := tray
    flags := flags
    depth := 0 }

/-- R153: the card header record of a card as it is opened. -/
def headerOf (s : State) (k : CardKind) (attempt tray : Nat) : CardHeader :=
  match k with
  | .chip job position copy slot => chipHeader s job position copy slot attempt tray
  | .separatorOpen => separatorHeader s { separatorOpen := true } attempt tray
  | .separatorClose => separatorHeader s { separatorClose := true } attempt tray

/-- R156, R157: CARD CLOSE is sent, the card is AWAITING and the response timer starts. -/
def closeCard (c : Card) (s : State) : State :=
  sendCard (cardCloseRecord c.tray)
    { s with cli := { s.cli with card := some { c with state := .awaiting }, timer := some s.cli.timeout } }

/-- R155 step 2: the row in the line buffer is sent, and the next line goes up by 1. -/
def sendLine (c : Card) (slot : Nat) (row : List Byte) (s : State) : State :=
  sendCard (chipLineRecord (((chipAt s.sc slot).map Chip.depth).getD 8) c.nextLine row)
    { s with cli := { s.cli with card := some { c with buffer := none, nextLine := c.nextLine + 1 } } }

/-- R155 steps 3 and 1: CARD CLOSE after line 2,911, or the read burst of the next line once no read burst waits or
is active. -/
def nextStep (c : Card) (slot : Nat) (s : State) : State :=
  if Config.chipRows ≤ c.nextLine then closeCard c s
  else if s.sc.read.isNone then { s with sc := askRead slot c.nextLine s.sc }
  else s

/-- R155, R156: a chip card goes on: the buffered row first. -/
def pumpChip (c : Card) (slot : Nat) (s : State) : State :=
  match c.buffer with
  | some row => nextStep { c with buffer := none, nextLine := c.nextLine + 1 } slot (sendLine c slot row s)
  | none => nextStep c slot s

/-- R155, R156, R158: the card in flight goes on as far as it can while it is SENDING. -/
def pump (s : State) : State :=
  match s.cli.card with
  | none => s
  | some c =>
    match c.state with
    | .paused | .awaiting => s
    | .sending =>
      match c.kind with
      | .chip _ _ _ slot => pumpChip c slot s
      | .separatorOpen | .separatorClose => closeCard c s

/-- R154 step 1: the tray sequence a card takes. -/
def trayFor (cli : Cli) (attempt : Nat) : Nat :=
  if attempt = 1 then cli.nextTray
  else match cli.failed with
    | some (t, _) => t
    | none => cli.nextTray

/-- R154 step 2. -/
def openSlot (k : CardKind) (sc : Sc) : Sc :=
  match k with
  | .chip _ _ _ slot => moveSlot slot .queued .recording (fun c => c) sc
  | .separatorOpen | .separatorClose => sc

/-- R154: a card is opened; a separator goes on at once to CARD CLOSE. -/
def openCard (k : CardKind) (attempt : Nat) (s : State) : State :=
  let tray := trayFor s.cli attempt
  let s1 := sendCard (cardOpenRecord (headerOf s k attempt tray)) { s with sc := openSlot k s.sc }
  pump
    { s1 with
      cs := { s1.cs with retry := none }
      cli := { s1.cli with
        card := some { state := .sending, kind := k, attempt := attempt, tray := tray, nextLine := 0, buffer := none }
        failed := none } }

/-! ### The end of an attempt (R141, R142, R145, R159) -/

/-- What an attempt came to (R141). -/
inductive Verdict where
  | completed
  | retry (cause : Cause)
  | rejected (cause : Cause)
deriving DecidableEq, Repr

/-- COMPLETED and REJECTED end the copy. -/
def Verdict.done : Verdict → Bool
  | .completed | .rejected _ => true
  | .retry _ => false

/-- R28, R145, R159: the captured retries that govern a card. -/
def retriesOf (s : State) (k : CardKind) : Nat :=
  match k with
  | .chip job _ _ _ => ((findJob job s.cs.queue).map Job.retries).getD 0
  | .separatorOpen | .separatorClose => (s.cs.breakIn.map BreakIn.retries).getD 0

/-- R159: a FAILED attempt becomes a retry below the captured retries + 1, and otherwise REJECTED. -/
def failedVerdict (s : State) (c : Card) (cause : Cause) : Verdict :=
  if c.attempt < retriesOf s c.kind + 1 then .retry cause else .rejected cause

/-- R163: 65,535 is followed by 1. -/
def nextNumber (n : Nat) : Nat := if n = 65535 then 1 else n + 1

/-- R141: the copy of a card is the last one of its position. -/
def lastCopy (s : State) (job copy : Nat) : Bool :=
  match findJob job s.cs.queue with
  | some j => j.copies ≤ copy
  | none => true

/-- R91, R92: a slot in a state is given back. -/
def releaseSlot (n : Nat) (before : ChipState) (sc : Sc) : Sc :=
  if (slotAt sc n).inState before then freeSlot n sc else sc

/-- R159 step 2: the slot leaves RECORDING. -/
def endSlot (k : CardKind) (v : Verdict) (s : State) : State :=
  match k with
  | .chip job _ copy slot =>
    if v.done && lastCopy s job copy then { s with sc := releaseSlot slot .recording s.sc }
    else { s with sc := moveSlot slot .recording .queued (fun c => c) s.sc }
  | .separatorOpen | .separatorClose => s

/-- The drawing key of a card's header record. -/
def cardKey (s : State) (k : CardKind) : Option DrawingKey :=
  match k with
  | .chip job _ _ _ => (findJob job s.cs.queue).bind Job.key
  | .separatorOpen | .separatorClose => s.cs.breakIn.bind BreakIn.key

/-- The card-list position of a chip card. -/
def cardPosition (s : State) (k : CardKind) : Option CardPos :=
  match k with
  | .chip job position _ _ => (findJob job s.cs.queue).bind (fun j => j.cards[position - 1]?)
  | .separatorOpen | .separatorClose => none

/-- A notice of the CLI about a card: its source, or 0 and 0, its key, and the sheet of an indexed chip card
(R159, R161). -/
def cardNotice (s : State) (kind : NoticeKind) (k : CardKind) (detail : Nat) : Notice where
  kind := kind
  roll := ((cardPosition s k).map CardPos.roll).getD 0
  ordinal := ((cardPosition s k).map CardPos.ordinal).getD 0
  key := cardKey s k
  sheet := if (cardKey s k).isSome then (cardPosition s k).map CardPos.sheet else none
  setNo := none
  detail := detail

/-- R159 step 5. -/
def noticeRejected (c : Card) (v : Verdict) (s : State) : State :=
  match v with
  | .rejected cause => raiseNotice (cardNotice s .cardRejected c.kind (codedTray cause.code c.tray)) s
  | .completed | .retry _ => s

/-- R141: the progress after a copy of a job is done. -/
def stepProgress (j : Job) : Job :=
  if j.copies ≤ j.nextCopy then { j with nextPos := j.nextPos + 1, nextCopy := 1 } else { j with nextCopy := j.nextCopy + 1 }

/-- R142, R145: a job whose last card has ended leaves the queue. The end of a break-in job moves the break-in to
CLOSING. -/
def endJob (id : Nat) (s : State) : State :=
  noteEntryFreed
    { s with
      cs := { s.cs with
        queue := dropJob id s.cs.queue
        current := none
        breakIn := s.cs.breakIn.map (fun b => { b with phase := .closing }) } }

/-- R141: progress moves on after a copy; the job ends after its last. -/
def jobDone (id : Nat) (s : State) : State :=
  match findJob id s.cs.queue with
  | none => s
  | some j =>
    let j1 := stepProgress j
    if j.cards.length ≤ j1.nextPos then endJob id s
    else { s with cs := { s.cs with queue := changeJob id stepProgress s.cs.queue } }

/-- R145: a separator that has ended moves the break-in on. -/
def separatorDone (s : State) : State :=
  match s.cs.breakIn with
  | none => s
  | some b =>
    match b.phase with
    | .opening => { s with cs := { s.cs with breakIn := some { b with phase := .running } } }
    | .running => s
    | .closing => { s with cs := { s.cs with current := some b.interrupted, breakIn := none } }

/-- R141: the CS takes the outcome of a card that is done. -/
def copyDone (k : CardKind) (s : State) : State :=
  match k with
  | .chip job _ _ _ => jobDone job s
  | .separatorOpen | .separatorClose => separatorDone s

/-- R144: the card that ended last. -/
def CardKind.asLast : CardKind → LastCard
  | .chip job _ _ _ => .job job
  | .separatorOpen | .separatorClose => .separator

/-- R159 steps 1, 3, 4 and 6: the CLI after an attempt; a read burst of the card is served and its row discarded
(R160, R162). -/
def clearCard (c : Card) (v : Verdict) (s : State) : State :=
  { s with
    sc := { s.sc with read := s.sc.read.map (fun r => { r with discard := true }) }
    cli := { s.cli with
      timer := none
      card := none
      nextTray := if v.done then nextNumber s.cli.nextTray else s.cli.nextTray
      failed := match v with
        | .retry cause => some (c.tray, cause)
        | .completed | .rejected _ => none } }

/-- R159 step 6: the outcome is reported to the CS. -/
def report (c : Card) (v : Verdict) (s : State) : State :=
  let s1 := { s with cs := { s.cs with last := c.kind.asLast } }
  match v with
  | .retry _ => { s1 with cs := { s1.cs with retry := some (c.attempt + 1) } }
  | .completed | .rejected _ => copyDone c.kind s1

/-- R159: the attempt of the card in flight ends. -/
def endAttempt (c : Card) (v : Verdict) (s : State) : State :=
  report c v (noticeRejected c v (clearCard c v (endSlot c.kind v s)))

/-! ### Late responses (R161) -/

/-- The failed-attempt record holds this tray sequence. -/
def failedEcho (s : State) (echo : Nat) : Bool :=
  match s.cli.failed with
  | some (t, _) => t == echo
  | none => false

/-- R161: LATE_RESPONSE, with the card concerned when the echo matches the failed-attempt record. -/
def lateNotice (s : State) (code echo : Nat) : Notice :=
  match presentKind s with
  | some k =>
    if failedEcho s echo then cardNotice s .lateResponse k (codedTray code echo)
    else { kind := .lateResponse, roll := 0, ordinal := 0, key := none, sheet := none, setNo := none
           detail := codedTray code echo }
  | none =>
    { kind := .lateResponse, roll := 0, ordinal := 0, key := none, sheet := none, setNo := none
      detail := codedTray code echo }

/-- R161: the slot of a withdrawn retry is released from QUEUED after its last copy. -/
def withdrawSlot (k : CardKind) (s : State) : State :=
  match k with
  | .chip job _ copy slot => if lastCopy s job copy then { s with sc := releaseSlot slot .queued s.sc } else s
  | .separatorOpen | .separatorClose => s

/-- R161: a late acceptance withdraws the pending retry, and the copy counts as COMPLETED. -/
def withdrawRetry (k : CardKind) (s : State) : State :=
  let s1 := withdrawSlot k s
  copyDone k
    { s1 with
      cs := { s1.cs with retry := none }
      cli := { s1.cli with failed := none, nextTray := nextNumber s1.cli.nextTray } }

/-- R161: an acceptance withdraws a retry when no card is in flight and the failed-attempt record holds the echo
with cause TIMEOUT. -/
def withdrawable (s : State) (echo : Nat) : Bool := s.cli.card.isNone && s.cli.failed == some (echo, .timeout)

/-- R161: a late CARD ACCEPTED. -/
def lateAccepted (echo : Nat) (s : State) : State :=
  let s1 := raiseNotice (lateNotice s 0xD1 echo) s
  if withdrawable s echo then
    match presentKind s with
    | some k => withdrawRetry k s1
    | none => s1
  else s1

/-- R161: a late CARD SPOILED. -/
def lateSpoiled (echo : Nat) (s : State) : State := raiseNotice (lateNotice s 0xD2 echo) s

/-- The card in flight that this echo answers (R159). -/
def answered (s : State) (echo : Nat) : Option Card :=
  match s.cli.card with
  | some c => if c.state = .awaiting ∧ c.tray = echo then some c else none
  | none => none

/-- R159, R161: CARD ACCEPTED is taken. -/
def takeAccepted (echo : Nat) (s : State) : State :=
  match answered s echo with
  | some c => endAttempt c .completed s
  | none => lateAccepted echo s

/-- R159, R161: CARD SPOILED is taken. -/
def takeSpoiled (echo : Nat) (reason : SpoilReason) (s : State) : State :=
  match answered s echo with
  | some c => endAttempt c (failedVerdict s c (causeOfSpoil reason)) s
  | none => lateSpoiled echo s

/-- R158: the card's answer to a RECORDER STATE. -/
def pauseCard (ready : Bool) (c : Card) : Card :=
  match c.state, ready with
  | .sending, false => { c with state := .paused }
  | .paused, true => { c with state := .sending }
  | .sending, true | .paused, false | .awaiting, _ => c

/-- R158: RECORDER STATE is taken; a state equal to the one held changes nothing. -/
def takeRecorderState (ready : Bool) (s : State) : State :=
  if s.cli.ready = ready then s
  else pump { s with cli := { s.cli with ready := ready, card := s.cli.card.map (pauseCard ready) } }

/-- R160: RECORDER RESTARTED is taken. -/
def takeRestarted (s : State) : State :=
  let s1 := { s with cli := { s.cli with ready := false } }
  match s.cli.card with
  | some c =>
    let source := cardNotice s .recorderRestarted c.kind c.tray
    endAttempt c (failedVerdict s c .restarted) (raiseNotice { source with key := none, sheet := none } s1)
  | none =>
    raiseNotice { kind := .recorderRestarted, roll := 0, ordinal := 0, key := none, sheet := none, setNo := none, detail := 0 } s1

/-- R146, R162: the card in flight is abandoned and REJECTED. -/
def cancelCard (c : Card) (s : State) : State :=
  endAttempt c (.rejected .cancelled) (sendCard (cardAbandonRecord c.tray) s)

/-- R157: the response timer expires. -/
def expireTimer (c : Card) (s : State) : State := endAttempt c (failedVerdict s c .timeout) s

/-! ### Card boundaries and batch markers (R138, R143) -/

/-- Table 1-5: a card boundary. -/
def boundary (s : State) : Bool := s.cli.card.isNone && s.cli.ready && s.sc.mode != .retaining

/-- R138: the card that a boundary hands over, if there is one. -/
def boundaryCard (s : State) : Option (State × CardKind × Nat) := if boundary s then chooseCard s else none

/-- R143: a marker stands at the head and can be removed. -/
def markerReady (s : State) : Bool :=
  s.cs.queue.head? == some .marker && s.cli.card.isNone && s.sc.mode != .retaining

/-- R143: the batch marker at the head is removed. -/
def removeMarker (s : State) : State :=
  let s1 := noteEntryFreed
    { s with
      cs := { s.cs with queue := s.cs.queue.drop 1 }
      cli := { s.cli with batch := nextNumber s.cli.batch, nextTray := 1 } }
  raiseNotice
    { kind := .batchDone, roll := 0, ordinal := 0, key := none, sheet := none, setNo := none, detail := s.cli.batch } s1

end Sys2Proof.Machine
end

