-- ==== Sys2Proof/Machine/Settle.lean ====
section
/-! DEFINITION. What follows by itself from a change: backlog items placed, a reservation or a slot granted, a batch
marker removed, a pressure release asked for, a card handed over (R96, R97, R118, R136, R138, R142, R143), and the
start of a wake (R109). The effects are taken one at a time in the order of R142 until none applies. -/

namespace Sys2Proof.Machine

/-- The slot of the card in flight (R94). -/
def cardSlot (s : State) : Option Nat :=
  match s.cli.card with
  | some c =>
    match c.kind with
    | .chip _ _ _ slot => some slot
    | .separatorOpen | .separatorClose => none
  | none => none

/-- The frame WAITING for a slot. -/
def slotWaiter (s : State) : Option FrameCtx :=
  match s.rs.intake with
  | .waitSlot f => some f
  | .idle | .receiving _ | .discarding .. | .waitReservation _ | .waitTarget _ => none

/-- The frame WAITING for a reservation. -/
def reservationWaiter (s : State) : Option FrameCtx :=
  match s.rs.intake with
  | .waitReservation f => some f
  | .idle | .receiving _ | .discarding .. | .waitSlot _ | .waitTarget _ => none

/-- The fields the SC enters in a granted slot's record (R53, R62, R94). -/
def grantedChip (f : FrameCtx) (g : Option Geometry) : Chip where
  owner := .openFrame
  roll := f.roll
  ordinal := f.ordinal
  depth := f.depth
  re := (g.map Geometry.re).getD 0
  flags := f.flags

/-- R62, R94: a slot is granted and the intake goes to RECEIVING. -/
def grantSlot (f : FrameCtx) (slot : Nat) (s : State) : State :=
  { s with
    sc := setSlot slot (.held .filling (grantedChip f s.rs.geometry)) s.sc
    rs := { s.rs with intake := .receiving { f with slot := some slot } } }

/-- R61, R136: a reservation is granted, and the frame asks for a slot: its wait for one begins. -/
def grantReservation (f : FrameCtx) (s : State) : State :=
  let s1 := enqueue .reservation s
  { s1 with rs := { s1.rs with intake := .waitSlot f }, sc := { s1.sc with askAgain := true } }

/-- R112 step 4: the frame that the SC can answer now. While a STORE PURGE waits for its last steps no slot is granted and
no release is asked for, so that every slot is FREE when the banks change (log entry 11). -/
def slotAsker (s : State) : Option FrameCtx := if s.mu.purgeTag.isNone then slotWaiter s else none

/-- R95, R96: a pressure release is asked for now, for this frame. -/
def pressureFor (s : State) : Option FrameCtx :=
  match slotAsker s with
  | some f => if s.sc.askAgain && !cardPathHolds s.sc then some f else none
  | none => none

/-- R95, R96: the SC asks for a pressure release. -/
def askRelease (f : FrameCtx) (s : State) : State :=
  pressureRelease f { s with sc := { s.sc with askAgain := false } }

/-- R97: the slot a waiting frame can be granted now. -/
def slotGrant (s : State) : Option (FrameCtx × Nat) :=
  match slotAsker s with
  | some f => (chooseSlot s.sc (cardSlot s)).map (fun n => (f, n))
  | none => none

/-- R136: the frame that can be granted a reservation now. -/
def reservationGrant (s : State) : Option FrameCtx :=
  match reservationWaiter s with
  | some f => if s.sau.backlog = [] ∧ entryFree s = true then some f else none
  | none => none

/-- R143 and R96 fall together: the free value says which the model takes first (R172, log entry 4). -/
def markerOrRelease (f : FrameCtx) (s : State) : State :=
  let s1 := { s with freeCount := s.freeCount + 1 }
  if Config.markerFirst s.freeCount then removeMarker s1 else askRelease f s1

/-- R96, R138, R143: a marker, a release, or a card. -/
def settleCards (s : State) : Option State :=
  match markerReady s, pressureFor s with
  | true, some f => some (markerOrRelease f s)
  | true, none => some (removeMarker s)
  | false, some f => some (askRelease f s)
  | false, none => (boundaryCard s).map (fun c => openCard c.2.1 c.2.2 c.1)

/-- The next effect that applies, in the order of R142; none when nothing more follows. -/
def settleStep (s : State) : Option State :=
  if s.sau.backlog ≠ [] ∧ entryFree s = true then some (placeHead s)
  else match reservationGrant s with
    | some f => some (grantReservation f s)
    | none =>
      match slotGrant s with
      | some (f, n) => some (grantSlot f n s)
      | none => settleCards s

/-- At most `n` effects. -/
def settleLoop : Nat → State → State
  | 0, s => s
  | n + 1, s =>
    match settleStep s with
    | some t => settleLoop n t
    | none => s

/-- More effects than one event can have: 11 backlog items, 32 markers, 10 releases, a reservation, a slot and a
card at most. -/
def settleFuel : Nat := 128

/-- The SC after the effects: no event is left to ask again for, and bursts and refreshes go on. -/
def storeAfter (sc : Sc) : Sc := storeSettle { sc with askAgain := false }

/-- Everything that follows from a change. -/
def settle (s : State) : State :=
  let t := settleLoop settleFuel s
  { t with sc := storeAfter t.sc }

/-- Only the SC's own consequences of a change: bursts granted, refreshes run. -/
def storeOnly (s : State) : State := { s with sc := storeSettle s.sc }

/-! ### The wake (R109) -/

/-- R109: the wake begins; the store leaves RETAINING, so a card boundary or a marker removal may follow. -/
def beginWake (s : State) : State := settle { s with sc := { s.sc with mode := .waking } }

/-- A FRAME HEADER stands at the head of the FIFO, and the intake could take it. -/
def headerWaits (s : State) : Bool :=
  match filmHead s with
  | some (.film (.header _)) => true
  | _ => false

/-- R58, R109: a FRAME HEADER that the intake meets at the head wakes a RETAINING store. -/
def meetHeader (s : State) : State :=
  if s.sc.mode = .retaining ∧ headerWaits s = true then beginWake s else s

/-- The end of a command: a header at the head may start a wake, and the return channel goes on. -/
def finish (s : State) : State := channel (meetHeader s)

end Sys2Proof.Machine
end

