-- ==== Sys2Proof/Machine/CardEvents.lean ====
section
/-! DEFINITION. The events of the Card Link: the response timer and the recorder's messages (R152, R157 to R161). -/

namespace Sys2Proof.Machine

/-- R157: the card whose response timer can expire, AWAITING with the timer running. -/
def timedCard (s : State) : Option Card :=
  match s.cli.card with
  | some c => if c.state = .awaiting ∧ s.cli.timer.isSome = true then some c else none
  | none => none

/-- RESPONSE_TIMER_EXPIRY (R157). -/
def execResponseTimerExpiry (s : State) : Host.Outcome State Fault Refusal :=
  match timedCard s with
  | some c => .next (finish (settle (expireTimer c (fresh s))))
  | none => .next (fresh s)

/-- RECORDER_STATE (R158). -/
def execRecorderState (ready : Bool) (s : State) : Host.Outcome State Fault Refusal :=
  .next (finish (settle (takeRecorderState ready (fresh s))))

/-- CARD_ACCEPTED (R159). -/
def execCardAccepted (echo : Word16) (s : State) : Host.Outcome State Fault Refusal :=
  .next (finish (settle (takeAccepted echo.toNat (fresh s))))

/-- CARD_SPOILED (R159). -/
def execCardSpoiled (echo : Word16) (reason : SpoilReason) (s : State) : Host.Outcome State Fault Refusal :=
  .next (finish (settle (takeSpoiled echo.toNat reason (fresh s))))

/-- RECORDER_RESTARTED (R160). -/
def execRecorderRestarted (s : State) : Host.Outcome State Fault Refusal :=
  .next (finish (settle (takeRestarted (fresh s))))

/-- R152: what a record from the recorder does: nothing when it is dropped; a record that passes its tests is the
message it carries. -/
def takeMessage (m : RecorderMessage) (s : State) : State :=
  match m with
  | .state ready => takeRecorderState ready s
  | .accepted echo => takeAccepted echo s
  | .spoiled echo reason => takeSpoiled echo reason s
  | .restarted => takeRestarted s

/-- RECORDER_MESSAGE_DROPPED (R152). -/
def execRecorderMessageDropped (r : LinkRecord) (s : State) : Host.Outcome State Fault Refusal :=
  match recorderMessage? r with
  | some m => .next (finish (settle (takeMessage m (fresh s))))
  | none => .next (fresh s)

end Sys2Proof.Machine
end

