-- ==== Sys2Proof/Machine/Geometry.lean ====
section
/-! DEFINITION. The GU's computation: orientation, base scale, extents, fit, offsets and effective reduction
(R37 to R46, R51). All of it is exact integer arithmetic (R38). -/

namespace Sys2Proof.Machine

/-- R37: the scan pitch clamped to 20..200. -/
def clampPitch (ps : Nat) : Nat := if ps < 20 then 20 else if 200 < ps then 200 else ps

/-- R26, R39: the rotation, portrait when Hf > Wf and landscape in every other case. -/
def orientation (wf hf : Nat) (landscape portrait : Rotation) : Rotation := if wf < hf then portrait else landscape

/-- R39: the rotation exchanges the extents. -/
def turned (r : Rotation) : Bool :=
  match r with
  | .r90 | .r270 => true
  | .r0 | .r180 => false

/-- R39: W′. -/
def rotatedWidth (r : Rotation) (wf hf : Nat) : Nat := if turned r then hf else wf
/-- R39: H′. -/
def rotatedHeight (r : Rotation) (wf hf : Nat) : Nat := if turned r then wf else hf

/-- R41: S₀. -/
def baseScale (num den : Nat) : Nat := (num * 65536 + den / 2) / den

/-- R42: S₀ clamped to 4,096..1,048,576. -/
def clampScale (s : Nat) : Nat := if s < 4096 then 4096 else if 1048576 < s then 1048576 else s

/-- R43: an extent of the rotated image on the chip. -/
def chipExtent (w s : Nat) : Nat := (w * s + 32768) / 65536

/-- R44: the smaller of the two candidates. -/
def shrinkScale (wr hr : Nat) : Nat := min (268435456 / wr) (190840832 / hr)

/-- R43: the image fits the window. -/
def fitsWindow (wo ho : Nat) : Bool := wo ≤ Config.chipColumns && ho ≤ Config.chipRows

/-- R46: an offset, rounded toward minus infinity. -/
def centreOffset (window extent : Nat) : Int := ((window : Int) - (extent : Int)) / 2

/-- R51: Re. -/
def effectiveReduction (num s pr : Nat) : Nat := (num * 65536 + s * pr / 2) / (s * pr)

/-- R43 to R45: the fit outcome. -/
def fitOutcome (wo ho : Nat) (fit : Fit) : FitOutcome :=
  if fitsWindow wo ho then .complete
  else match fit with
    | .shrink => .reduced
    | .crop => .cropped

/-- R44, R45: the scale after the fit. -/
def fitScale (s wr hr : Nat) (o : FitOutcome) : Nat :=
  match o with
  | .reduced => shrinkScale wr hr
  | .complete | .cropped => s

/-- R35 to R51: the geometry record from the captured inputs. -/
def makeGeometry (ps wf hf rf rc pr : Nat) (fit : Fit) (landscape portrait : Rotation) : Geometry :=
  let p := clampPitch ps
  let r := orientation wf hf landscape portrait
  let wr := rotatedWidth r wf hf
  let hr := rotatedHeight r wf hf
  let num := p * rf
  let den := rc * pr
  let s0 := baseScale num den
  let s1 := clampScale s0
  let outcome := fitOutcome (chipExtent wr s1) (chipExtent hr s1) fit
  let s := fitScale s1 wr hr outcome
  let wo := chipExtent wr s
  let ho := chipExtent hr s
  { ps := p, wf := wf, hf := hf, rf := rf, rc := rc, pr := pr, fit := fit, rotation := r
    wr := wr, hr := hr, num := num, den := den, scale := s, outcome := outcome, wo := wo, ho := ho
    xoff := centreOffset Config.chipColumns wo, yoff := centreOffset Config.chipRows ho
    re := effectiveReduction num s pr, clamped := p != ps, limited := s1 != s0 }

end Sys2Proof.Machine
end

