-- ==== Sys2Proof/Machine/Raster.lean ====
section
/-! DEFINITION. The dot mapping and the bands of scan lines (R27, R34, R40, R47 to R50, R67 to R73, R75). -/

namespace Sys2Proof.Machine

/-! ### Stage 6 along one axis (R47) -/

/-- R47: where a rotated position begins. -/
def spanLow (off : Int) (s t : Nat) : Int := off + ((t * s / 65536 : Nat) : Int)

/-- R47: where a rotated position ends; it always covers its lower end. -/
def spanHigh (off : Int) (s t : Nat) : Int :=
  let high := off + (((t + 1) * s / 65536 : Nat) : Int) - 1
  if high < spanLow off s t then spanLow off s t else high

/-- R47: rotated position `t` covers row or column `x`. -/
def covers (off : Int) (s t : Nat) (x : Int) : Bool := spanLow off s t ≤ x && x ≤ spanHigh off s t

/-- The part of an interval of rows or columns that lies in the raster, as a first one and a count (R50). -/
def clip (low high : Int) (window : Nat) : Nat × Nat :=
  let first := min low.toNat window
  (first, (min (high + 1) window).toNat - first)

/-! ### Ink (R27, R34, R48) -/

/-- R48: the larger of two inks. -/
def maxInk (a b : Byte) : Byte := if a.toNat ≤ b.toNat then b else a

/-- R27: the output level of an ink at depth `d`. -/
def inkLevel (d : Nat) (ink : Byte) : Byte := byteOf (ink.toNat / 2 ^ (8 - d))

/-- R34: a sample through the working tone copy. -/
def toneInk (tone : List Byte) (s : Byte) : Byte := tone.getD s.toNat 0

/-- R68: the inks of a LINE that carries at least one sample: samples beyond Wf dropped, a short line padded with
the ink of its last sample. -/
def lineInks (tone : List Byte) (wf : Nat) (samples : List Byte) : List Byte :=
  let used := (samples.take wf).map (toneInk tone)
  used ++ List.replicate (wf - used.length) (used.getLastD 0)

/-- R67: the inks of a filled line. -/
def filledInks (wf : Nat) : List Byte := List.replicate wf 0

/-! ### Bands (R40, R69, R70) -/

/-- Table 4-4: whole rows under rotation 0 and 180, whole columns under 90 and 270. -/
def axisOf (r : Rotation) : Axis := if turned r then .columns else .rows

/-- R40: the rotated row or column that scan line `j` becomes. -/
def rotatedLine (r : Rotation) (hf j : Nat) : Nat :=
  match r with
  | .r0 | .r270 => j
  | .r90 | .r180 => hf - 1 - j

/-- R40: the line's inks in the order of rotated positions across its band. -/
def crossInks (r : Rotation) (inks : List Byte) : List Byte :=
  match r with
  | .r0 | .r90 => inks
  | .r180 | .r270 => inks.reverse

/-- Offset and window of the axis along which bands advance. -/
def bandAxis (g : Geometry) : Int × Nat :=
  match axisOf g.rotation with
  | .rows => (g.yoff, Config.chipRows)
  | .columns => (g.xoff, Config.chipColumns)

/-- Offset and window of the axis across the band. -/
def crossAxis (g : Geometry) : Int × Nat :=
  match axisOf g.rotation with
  | .rows => (g.xoff, Config.chipColumns)
  | .columns => (g.yoff, Config.chipRows)

/-- R69: the band of scan line `j`, its first row or column in the raster and how many. -/
def lineBand (g : Geometry) (j : Nat) : Nat × Nat :=
  let a := bandAxis g
  let t := rotatedLine g.rotation g.hf j
  clip (spanLow a.1 g.scale t) (spanHigh a.1 g.scale t) a.2

/-- R70: the largest ink among the positions, numbered from `t` on, that cover `x`; none when none does. -/
def coveringInk (off : Int) (s : Nat) (x : Int) : Nat → List Byte → Option Byte
  | _, [] => none
  | t, v :: vs =>
    let rest := coveringInk off s x (t + 1) vs
    if covers off s t x then
      match rest with
      | some w => some (maxInk v w)
      | none => some v
    else rest

/-- R49, R69: the inks of one whole row or column of the band. -/
def bandInks (g : Geometry) (margin : Byte) (inks : List Byte) : List Byte :=
  let a := crossAxis g
  let cross := crossInks g.rotation inks
  (List.range a.2).map (fun (x : Nat) => (coveringInk a.1 g.scale (x : Int) 0 cross).getD margin)

/-- R72: the carry combined with a row or column of the same number. -/
def combineCarry (carry : Option Carry) (line : Nat) (inks : List Byte) : List Byte :=
  match carry with
  | some c => if c.line = line then List.zipWith maxInk c.inks inks else inks
  | none => inks

/-- R72: the leading edge of a band. -/
def leadingEdge (r : Rotation) (first count : Nat) : Nat :=
  match r with
  | .r0 | .r270 => first + count - 1
  | .r90 | .r180 => first

/-- R69 to R73: the write burst of scan line `j` with these inks, and the carry after it; none when its band is
empty. -/
def mapLine (g : Geometry) (slot depth : Nat) (margin : Byte) (carry : Option Carry) (j : Nat) (inks : List Byte) :
    Option (WriteBurst × Carry) :=
  let band := lineBand g j
  if band.2 = 0 then none
  else
    let dots := bandInks g margin inks
    let lines := (List.range band.2).map (fun i => combineCarry carry (band.1 + i) dots)
    let edge := leadingEdge g.rotation band.1 band.2
    some
      ({ slot := slot, axis := axisOf g.rotation, first := band.1
         lines := lines.map (fun l => l.map (inkLevel depth)), active := false, aborted := false },
       { line := edge, inks := combineCarry carry edge dots })

/-! ### Closing bursts (R75 step 3) -/

/-- A run of unwritten rows or columns cut into bursts of 16, the remainder in the last. -/
def cutRun (first count : Nat) : List (Nat × Nat) :=
  (List.range ((count + Config.closingBurst - 1) / Config.closingBurst)).map
    (fun i => (first + Config.closingBurst * i, min Config.closingBurst (count - Config.closingBurst * i)))

/-- R47: the rows or columns of the raster that the frame's bands cover, one unbroken run. -/
def coveredRun (g : Geometry) : Nat × Nat :=
  let a := bandAxis g
  let last := match axisOf g.rotation with
    | .rows => g.hr - 1
    | .columns => g.wr - 1
  clip (spanLow a.1 g.scale 0) (spanHigh a.1 g.scale last) a.2

/-- R75 step 3: the closing bursts of a frame, in raster order. -/
def closingBursts (g : Geometry) : List (Nat × Nat) :=
  let run := coveredRun g
  let window := (bandAxis g).2
  cutRun 0 run.1 ++ cutRun (run.1 + run.2) (window - (run.1 + run.2))

/-- R75 step 3: one closing burst, every dot at the margin ink's level. -/
def marginBurst (g : Geometry) (slot depth : Nat) (margin : Byte) (first count : Nat) : WriteBurst where
  slot := slot
  axis := axisOf g.rotation
  first := first
  lines := List.replicate count (List.replicate (crossAxis g).2 (inkLevel depth margin))
  active := false
  aborted := false

end Sys2Proof.Machine
end

