-- ==== Sys2Proof/Machine/Intake.lean ====
section
/-! DEFINITION. The intake: matching, the density monitor, taking a header, lines and fills, closing, filing and
aborting a frame (R11 to R16, R24, R33, R35 to R37, R53, R55 to R80, R82 to R86). -/

namespace Sys2Proof.Machine

/-! ### Matching (R11 to R16) -/

/-- R13: the entry's roll is the frame's and its covered range contains the ordinal. -/
def IndexEntry.covers (e : IndexEntry) (roll ordinal : Nat) : Bool :=
  e.roll == roll && e.first ≤ ordinal && ordinal < e.first + e.count

/-- R14: the sheet derived from an entry. -/
def IndexEntry.sheetOf (e : IndexEntry) (ordinal : Nat) : Nat :=
  if e.sameSheet then e.firstSheet else e.firstSheet + (ordinal - e.first)

/-- Table 1-11: the fields taken from the matching entry. -/
def IndexEntry.matched (e : IndexEntry) (ordinal : Nat) : Matched where
  key := e.key
  sheet := e.sheetOf ordinal
  sheetCount := e.sheetCount
  cls := e.cls
  rf := e.rf

/-- R13: the first valid entry, from position 0 upward, that covers the frame. -/
def scanIndex (roll ordinal : Nat) : List (Nat × IndexEntry) → Option (Nat × IndexEntry)
  | [] => none
  | (p, e) :: es => if e.covers roll ordinal then some (p, e) else scanIndex roll ordinal es

/-- R12: ordinals 1 to 4. -/
def isLeader (ordinal : Nat) : Bool := 1 ≤ ordinal && ordinal ≤ 4

/-- R11 to R15: the match result of a header. -/
def classify (mu : Mu) (h : Header) : MatchResult :=
  if isLeader h.ordinal then .leader
  else match scanIndex h.roll h.ordinal mu.index with
    | some (p, e) =>
      if e.superseded then .superseded p (e.matched h.ordinal) else .indexed p (e.matched h.ordinal)
    | none => .unindexed (classAt mu 0).assumedRf

/-! ### The density monitor (R82 to R85) -/

/-- Table 5-2: the state after a header. -/
def nextDensity (dm : Dm) (db : Nat) : Density :=
  match dm.state with
  | .normal => if db < dm.enter then .thin else .normal
  | .thin => if dm.leave < db then .normal else .thin

/-- R82: the monitor after it has evaluated a header. -/
def Dm.evaluate (dm : Dm) (h : Header) : Dm :=
  { dm with state := nextDensity dm h.db, last := some { roll := h.roll, ordinal := h.ordinal, db := h.db } }

/-- A notice about a header, with the key and sheet of its match result. -/
def headerNotice (kind : NoticeKind) (h : Header) (m : Option Matched) (detail : Nat) : Notice where
  kind := kind
  roll := h.roll
  ordinal := h.ordinal
  key := m.map Matched.key
  sheet := m.map Matched.sheet
  setNo := none
  detail := detail

/-- R84: the notice of a change of state. -/
def densityNotice (before after : Density) : Option NoticeKind :=
  match before, after with
  | .normal, .thin => some .densityWarn
  | .thin, .normal => some .densityClear
  | .normal, .normal | .thin, .thin => none

/-- R82 to R84: the monitor evaluates a header. -/
def evaluateHeader (h : Header) (m : Option Matched) (s : State) : State :=
  let s1 := { s with dm := s.dm.evaluate h }
  match densityNotice s.dm.state (nextDensity s.dm h.db) with
  | some k => if s.dm.enable then raiseNotice (headerNotice k h m h.db) s1 else s1
  | none => s1

/-! ### Taking a header (R57 to R62) -/

def setIntake (i : Intake) (s : State) : State := { s with rs := { s.rs with intake := i } }

/-- Table 4-3: the frame goes to DISCARDING. -/
def discardFrame (reason : DiscardReason) (h : Header) (s : State) : State := setIntake (.discarding reason h.roll h.ordinal) s

/-- R36, R39: the geometry of a frame. -/
def frameGeometry (c : ClassEntry) (pr rf : Nat) (h : Header) : Geometry :=
  makeGeometry h.ps h.wf h.hf rf c.rc pr c.fit c.landscape c.portrait

/-- R37: PARAM_CLAMPED is raised when the scan pitch was clamped. -/
def noticeClamped (g : Geometry) (h : Header) (m : Option Matched) (s : State) : State :=
  if g.clamped then raiseNotice (headerNotice .paramClamped h m h.ps) s else s

/-- R55, R59: the frame context at the end of the set-up. -/
def newFrame (h : Header) (m : Option Matched) (dest : Destination) (flags : CardFlags) (c : ClassEntry) : FrameCtx where
  roll := h.roll
  ordinal := h.ordinal
  wf := h.wf
  hf := h.hf
  entry := m
  dest := dest
  flags := flags
  depth := c.depth
  margin := c.margin
  slot := none
  expected := 0
  records := 0
  gap := false
  carry := none

/-- R59 steps 4 and 5: the frame asks for its reservation or for its slot; the grant itself is `settle`'s. -/
def firstWait (f : FrameCtx) : Intake :=
  match f.dest with
  | .passThrough => .waitReservation f
  | .set _ | .group => .waitSlot f

/-- R59: a frame that passed its tests is set up. -/
def setUp (h : Header) (m : Option Matched) (rf : Nat) (s : State) : State :=
  let c := classAt s.mu ((m.map Matched.cls).getD 0)
  let g := frameGeometry c s.cli.pr rf h
  let f := newFrame h m (destinationOf m s.sau) (frameFlags (s.dm.state == .thin) g) c
  let s1 := noticeClamped g h m s
  { s1 with
    rs := { intake := firstWait f, work := .none, tone := some (s.mu.tones.getD c.tone []), geometry := some g }
    sc := { s1.sc with askAgain := true } }

/-- R59, R85: the floor test, then the set-up. -/
def floorTest (h : Header) (m : Option Matched) (rf : Nat) (s : State) : State :=
  if h.db < s.dm.floor then discardFrame .floor h (raiseNotice (headerNotice .floorReject h m h.db) s)
  else setUp h m rf s

/-- R16: a superseded frame. -/
def skipSuperseded (h : Header) (p : Nat) (m : Matched) (s : State) : State :=
  discardFrame .superseded h (raiseNotice (headerNotice .supersededSkipped h (some m) p) s)

/-- R58: a header with an extent of 0. -/
def rejectHeader (h : Header) (s : State) : State :=
  discardFrame .badHeader h (raiseNotice (headerNotice .frameLost h none 1) s)

/-- R58, R59: a FRAME HEADER with the store ACTIVE and no frame open. -/
def takeHeader (h : Header) (s : State) : State :=
  if h.wf = 0 ∨ h.hf = 0 then rejectHeader h s
  else match classify s.mu h with
    | .leader => discardFrame .leader h s
    | .superseded p m => skipSuperseded h p m (evaluateHeader h (some m) s)
    | .indexed _ m => floorTest h (some m) m.rf (evaluateHeader h (some m) s)
    | .unindexed rf => floorTest h none rf (evaluateHeader h none s)

/-! ### Lines into bursts (R65 to R74) -/

/-- R67: the gap flag is set, and GAPPED stands among the frame flags. -/
def FrameCtx.gapped (f : FrameCtx) : FrameCtx := { f with gap := true, flags := { f.flags with gapped := true } }

/-- R67: the SC enters GAPPED in the slot record. -/
def enterGapped (slot : Nat) (sc : Sc) : Sc :=
  changeChip slot (fun c => { c with flags := { c.flags with gapped := true } }) sc

/-- R65, R69 to R72: the expected line is placed on the chip with these inks; its burst is asked for, unless its band is
empty. -/
def placeLine (f : FrameCtx) (g : Geometry) (slot : Nat) (inks : List Byte) (s : State) : State :=
  match mapLine g slot f.depth f.margin f.carry f.expected inks with
  | some (b, c) =>
    { s with
      rs := { s.rs with intake := .receiving { f with expected := f.expected + 1, carry := some c } }
      sc := askWrite b s.sc }
  | none => { s with rs := { s.rs with intake := .receiving { f with expected := f.expected + 1 } } }

/-- R67: the expected line is filled. -/
def fillLine (f : FrameCtx) (g : Geometry) (slot : Nat) (s : State) : State :=
  placeLine f.gapped g slot (filledInks f.wf) { s with sc := enterGapped slot s.sc }

/-- R68: the expected line is resampled from its samples. -/
def resampleLine (f : FrameCtx) (g : Geometry) (slot : Nat) (samples : List Byte) (s : State) : State :=
  if samples = [] then fillLine f g slot s
  else
    let inks := lineInks (s.rs.tone.getD []) f.wf samples
    if samples.length < f.wf then placeLine f.gapped g slot inks { s with sc := enterGapped slot s.sc }
    else placeLine f g slot inks s

def setWork (w : Work) (s : State) : State := { s with rs := { s.rs with work := w } }

/-- R75 step 2: the lines-sent check. -/
def sentCheck (f : FrameCtx) (slot : Nat) (sent : Option Nat) (s : State) : State :=
  match sent with
  | some n =>
    if f.records < n then { s with rs := { s.rs with intake := .receiving f.gapped }, sc := enterGapped slot s.sc } else s
  | none => s

/-- R65, R75: the next thing the RS does with the record the intake has taken; none when the record is finished with,
or when only the filing remains. -/
def workStep (f : FrameCtx) (g : Geometry) (slot : Nat) (s : State) : Option State :=
  match s.rs.work with
  | .none => none
  | .line n samples =>
    if f.expected < n then some (fillLine f g slot s)
    else some (setWork .none (resampleLine f g slot samples s))
  | .fill sent =>
    if f.expected < f.hf then some (fillLine f g slot s)
    else some (setWork (.margins sent.isNone (closingBursts g)) (sentCheck f slot sent s))
  | .margins _ [] => none
  | .margins i (b :: bs) =>
    some (setWork (.margins i bs) { s with sc := askWrite (marginBurst g slot f.depth f.margin b.1 b.2) s.sc })

/-- R74: the RS works on until it has a burst to be served, or is done. At most `n` things. -/
def runWork : Nat → State → State
  | 0, s => s
  | n + 1, s =>
    match s.sc.write, s.rs.intake, s.rs.geometry with
    | none, .receiving f, some g =>
      match workStep f g (f.slot.getD 0) s with
      | some t => runWork n t
      | none => s
    | _, _, _ => s

/-- More than the lines of a frame (16,383) and the changes of work between them. -/
def workFuel : Nat := 16400

/-! ### Closing (R75 to R77) -/

/-- R75 step 4: the frame is filed; the intake is IDLE, and the geometry and the context are emptied. The working tone
copy stands until the next set-up fills it again (log entry 36). -/
def fileOpen (s : State) : State :=
  match s.rs.intake with
  | .receiving f =>
    let s1 := fileFrame f (f.slot.getD 0) s
    { s1 with rs := { s1.rs with intake := .idle, work := .none, geometry := none } }
  | .idle | .discarding .. | .waitSlot _ | .waitReservation _ | .waitTarget _ => s

/-- R57: a lost FRAME HEADER with no frame open. -/
def lostHeader (s : State) : State := setIntake (.discarding .linkError 0 0) s

/-- R76: the record that caused an implicit end is gone on with at once, the intake being IDLE (log entry 7). -/
def takeCause (s : State) : State :=
  match headItem s.fli with
  | some (.film (.header h)) => settle (takeHeader h (popHead s))
  | some (.film (.target t)) => settle (targetOp t (popHead s))
  | some (.loss .frameHeader) => lostHeader (popHead s)
  | _ => s

/-- R75 step 4, R76: when the last closing burst has been served the frame is filed. -/
def closeFrame (implicit : Bool) (s : State) : State :=
  let s1 := settle (fileOpen s)
  if implicit then takeCause s1 else s1

/-- The RS goes on; the frame is filed when nothing of its close is left. -/
def advance (s : State) : State :=
  let s1 := runWork workFuel s
  match s1.rs.work, s1.sc.write with
  | .margins i [], none => closeFrame i s1
  | _, _ => storeOnly s1

/-- A notice about the open frame: the key and sheet of an INDEXED match result, the record of a set destination. -/
def frameNotice (kind : NoticeKind) (f : FrameCtx) (detail : Nat) : Notice where
  kind := kind
  roll := f.roll
  ordinal := f.ordinal
  key := f.entry.map Matched.key
  sheet := f.entry.map Matched.sheet
  setNo := match f.dest with
    | .set n => some n
    | .group | .passThrough => none
  detail := detail

/-- R76: an implicit end begins. The record that causes it stands at the head of the FIFO until the frame is filed
(log entry 7); FRAME_UNTERMINATED is raised here (log entry 6). -/
def implicitEnd (f : FrameCtx) (s : State) : State :=
  advance (setWork (.fill none) (raiseNotice (frameNotice .frameUnterminated f (f.hf - f.expected)) s))

/-- R65: a LINE taken while RECEIVING: counted, then discarded or worked on. -/
def takeLine (f : FrameCtx) (n : Nat) (samples : List Byte) (s : State) : State :=
  let s1 := setIntake (.receiving { f with records := min 65535 (f.records + 1) }) s
  if f.expected ≤ n ∧ n < f.hf then advance (setWork (.line n samples) s1) else s1

/-- R75: a FRAME END taken while RECEIVING. -/
def takeFrameEnd (sent : Nat) (s : State) : State := advance (setWork (.fill (some sent)) s)

/-! ### Aborting (R78 to R80) -/

/-- R78, R79: a frame's slot is given back. A waiting burst of the frame is dropped; an active one ends first. -/
def dropSlot (slot : Option Nat) (sc : Sc) : Sc :=
  match slot with
  | none => sc
  | some n =>
    match sc.write with
    | some w =>
      if w.active then { sc with write := some { w with aborted := true } } else freeSlot n { sc with write := none }
    | none => freeSlot n sc

/-- R78: the intake, the carry, the geometry record and the working tone copy are emptied. -/
def emptyIntake (s : State) : State := { s with rs := { intake := .idle, work := .none, tone := none, geometry := none } }

/-- R78, R80: an open or waiting frame is aborted, with this FRAME_LOST. -/
def abortWith (f : FrameCtx) (lost : Notice) (s : State) : State :=
  let s1 := raiseNotice lost (releaseReservation s)
  emptyIntake { s1 with sc := dropSlot f.slot s1.sc }

/-- R78: link loss acts on the intake. -/
def intakeLinkLoss (s : State) : State :=
  match s.rs.intake with
  | .receiving f | .waitSlot f | .waitReservation f => abortWith f (frameNotice .frameLost f 2) s
  | .discarding .. => setIntake .idle s
  | .idle | .waitTarget _ => s

end Sys2Proof.Machine
end

