-- ==== Sys2Proof/Machine/Film.lean ====
section
/-! DEFINITION. The commands that take a film record or a loss indication from the head of the intake FIFO
(R56 to R60, R65, R66, R75 to R77). A command whose record does not stand at the head, or may not be taken yet, has no
effect (log entry 1). -/

namespace Sys2Proof.Machine

/-- The FRAME HEADER the intake may take now. -/
def headHeader (s : State) : Option Header :=
  match filmHead s with
  | some (.film (.header h)) => some h
  | _ => none

/-- R58, R60: a FRAME HEADER with the store ACTIVE. -/
def takeFrameHeader (h : Header) (s : State) : State :=
  match s.rs.intake with
  | .receiving f => implicitEnd f s
  | .idle | .discarding .. | .waitSlot _ | .waitReservation _ | .waitTarget _ => settle (takeHeader h (popHead s))

/-- FRAME_HEADER (R58): with the store not ACTIVE the header is left at the head. -/
def execFrameHeader (s : State) : Host.Outcome State Fault Refusal :=
  match headHeader s with
  | some h => if s.sc.mode = .active then .next (finish (takeFrameHeader h (fresh s))) else .next (finish (fresh s))
  | none => .next (fresh s)

/-- The LINE the intake may take now: its number and samples. -/
def headLine (s : State) : Option (Nat × List Byte) :=
  match filmHead s with
  | some (.film (.line n samples)) => some (n, samples)
  | _ => none

/-- R65, R66. -/
def takeLineRecord (n : Nat) (samples : List Byte) (s : State) : State :=
  match s.rs.intake with
  | .receiving f => takeLine f n samples s
  | .idle | .discarding .. | .waitSlot _ | .waitReservation _ | .waitTarget _ => s

/-- LINE (R65). -/
def execLine (s : State) : Host.Outcome State Fault Refusal :=
  match headLine s with
  | some (n, samples) => .next (finish (takeLineRecord n samples (popHead (fresh s))))
  | none => .next (fresh s)

/-- The FRAME END the intake may take now: its lines-sent count. -/
def headFrameEnd (s : State) : Option Nat :=
  match filmHead s with
  | some (.film (.frameEnd n)) => some n
  | _ => none

/-- R75: a FRAME END by the intake state. -/
def takeFrameEndRecord (sent : Nat) (s : State) : State :=
  match s.rs.intake with
  | .receiving _ => takeFrameEnd sent s
  | .discarding .. => setIntake .idle s
  | .idle | .waitSlot _ | .waitReservation _ | .waitTarget _ => s

/-- FRAME_END (R75). -/
def execFrameEnd (s : State) : Host.Outcome State Fault Refusal :=
  match headFrameEnd s with
  | some sent => .next (finish (takeFrameEndRecord sent (popHead (fresh s))))
  | none => .next (fresh s)

/-- The TARGET of a kind that the intake may take now. -/
def headTarget (k : TargetKind) (s : State) : Option Target :=
  match filmHead s with
  | some (.film (.target t)) => if t.kind = k then some t else none
  | _ => none

/-- R77: a TARGET by the intake state. -/
def takeTarget (t : Target) (s : State) : State :=
  match s.rs.intake with
  | .receiving f => implicitEnd f s
  | .idle | .discarding .. | .waitSlot _ | .waitReservation _ | .waitTarget _ => settle (targetOp t (popHead s))

/-- START (R126). -/
def execStart (s : State) : Host.Outcome State Fault Refusal :=
  match headTarget .start s with
  | some t => .next (finish (takeTarget t (fresh s)))
  | none => .next (fresh s)

/-- END (R125). -/
def execEndTarget (s : State) : Host.Outcome State Fault Refusal :=
  match headTarget .endSet s with
  | some t => .next (finish (takeTarget t (fresh s)))
  | none => .next (fresh s)

/-- BATCH_END (R127). -/
def execBatchEnd (s : State) : Host.Outcome State Fault Refusal :=
  match headTarget .batchEnd s with
  | some t => .next (finish (takeTarget t (fresh s)))
  | none => .next (fresh s)

/-- The loss indication the intake may take now. -/
def headLoss (s : State) : Option FilmKind :=
  match filmHead s with
  | some (.loss k) => some k
  | _ => none

/-- R57: a loss indication by the kind lost. -/
def takeLoss (k : FilmKind) (s : State) : State :=
  match k with
  | .frameHeader =>
    match s.rs.intake with
    | .receiving f => implicitEnd f s
    | .idle | .discarding .. | .waitSlot _ | .waitReservation _ | .waitTarget _ => lostHeader (popHead s)
  | .line | .frameEnd | .target => popHead s

/-- LOSS_INDICATION (R57). -/
def execLossIndication (s : State) : Host.Outcome State Fault Refusal :=
  match headLoss s with
  | some k => .next (finish (takeLoss k (fresh s)))
  | none => .next (fresh s)

end Sys2Proof.Machine
end

