-- ==== Sys2Proof/Machine/PowerLink.lean ====
section
/-! DEFINITION. Power-on, start-up loading, the link state, records arriving and the return channel
(R166 to R173, R177, R178). -/

namespace Sys2Proof.Machine

/-! ### Power-on and loading (R177, R178) -/

/-- POWER_ON (R177): every block takes its power-on state, and loading begins. -/
def execPowerOn (s : State) : Host.Outcome State Fault Refusal := .next { State.reset with pending := s.pending }

/-- R178: a word of all zeros or all ones is not usable. -/
def usableWord (w : Word16) : Bool := w != 0 && w != 0xFFFF

/-- R178: a loaded value in the usable range, or the default. -/
def loadedOr (lo hi default : Nat) (w : Word16) : Nat :=
  if usableWord w && inRange lo hi w.toNat then w.toNat else default

/-- R178: a serial word or the station number. -/
def identityWord (w : Word16) : Word16 := if usableWord w then w else 0

/-- R178: three threshold words are used together, or none of them. -/
def usableTriple (f e l : Word16) : Bool :=
  usableWord f && usableWord e && usableWord l && f.toNat < e.toNat && e.toNat < l.toNat && l.toNat ≤ 255

/-- The items of Table 10-5. -/
structure ConfigItems where
  serial1  : Word16
  serial2  : Word16
  interval : Nat
  banks    : Nat
  timeout  : Nat
  pr       : Nat
  floor    : Nat
  enter    : Nat
  leave    : Nat
  station  : Word16
  defaulted : Bool
deriving DecidableEq, Repr

/-- R177: every item at its built-in default, with CONFIG_DEFAULTED. -/
def ConfigItems.builtIn : ConfigItems where
  serial1 := 0
  serial2 := 0
  interval := Config.defaultInterval
  banks := Config.defaultBanks
  timeout := Config.defaultTimeout
  pr := Config.defaultDotPitch
  floor := Config.defaultFloor
  enter := Config.defaultEnter
  leave := Config.defaultLeave
  station := 0
  defaulted := true

/-- R178: the items judged on the 16 words of a memory that answered with the marker. -/
def ConfigItems.judged (word : Nat → Word16) : ConfigItems :=
  let triple := usableTriple (word 7) (word 8) (word 9)
  { serial1 := identityWord (word 1)
    serial2 := identityWord (word 2)
    interval := loadedOr 2 64 Config.defaultInterval (word 3)
    banks := loadedOr 1 4 Config.defaultBanks (word 4)
    timeout := 10 * loadedOr 25 800 200 (word 5)
    pr := loadedOr 50 200 Config.defaultDotPitch (word 6)
    floor := if triple then (word 7).toNat else Config.defaultFloor
    enter := if triple then (word 8).toNat else Config.defaultEnter
    leave := if triple then (word 9).toNat else Config.defaultLeave
    station := identityWord (word 10)
    defaulted := false }

/-- R177: the three ways in which loading ends. -/
def configItems (words : List Word16) : ConfigItems :=
  if Config.configWords ≤ words.length ∧ words.getD 0 0 = Config.markerWord then .judged (fun i => words.getD i 0)
  else .builtIn

/-- R177: each item is handed to its owner, the state becomes RUNNING and the refresh timer starts (R102). -/
def handOver (c : ConfigItems) (s : State) : State :=
  { s with
    mu := { s.mu with
      serial1 := c.serial1
      serial2 := c.serial2
      station := c.station
      lastReset := .power
      startup := .running
      sticky := { s.mu.sticky with configDefaulted := s.mu.sticky.configDefaulted || c.defaulted } }
    dm := { s.dm with floor := c.floor, enter := c.enter, leave := c.leave }
    cli := { s.cli with pr := c.pr, timeout := c.timeout }
    sc := { s.sc with
      interval := c.interval
      banks := c.banks
      cfgInterval := c.interval
      cfgBanks := c.banks
      slots := emptySlots c.banks
      timer := some c.interval } }

/-- LOADING_END (R177). -/
def execLoadingEnd (words : List Word16) (s : State) : Host.Outcome State Fault Refusal :=
  if s.mu.startup = .loading then .next (finish (handOver (configItems words) (fresh s))) else .next (fresh s)

/-! ### The link state (R166) -/

/-- R166: the link comes UP; the present HOLD state is sent first. -/
def raiseLink (s : State) : State :=
  { s with
    fli := { s.fli with link := .up, holdTold := holdState s }
    returnOut := s.returnOut ++ [.symbol (holdState s)] }

/-- LINK_UP (R166). -/
def execLinkUp (s : State) : Host.Outcome State Fault Refusal :=
  if s.fli.link = .down then .next (finish (raiseLink (fresh s))) else .next (fresh s)

/-- R166 steps 1 to 3: LINK_LOST_SEEN, LINK_LOST, and a sending cut short. -/
def dropLink (s : State) : State :=
  raiseNotice { kind := .linkLost, roll := 0, ordinal := 0, key := none, sheet := none, setNo := none, detail := 0 }
    { s with
      fli := { s.fli with link := .down, sending := none }
      mu := { s.mu with sticky := { s.mu.sticky with linkLostSeen := true } } }

/-- LINK_LOSS (R166, R78). -/
def execLinkLoss (s : State) : Host.Outcome State Fault Refusal :=
  if s.fli.link = .up then .next (finish (settle (intakeLinkLoss (dropLink (fresh s))))) else .next (fresh s)

/-! ### Records arriving (R167, R168) -/

/-- R168: a loss indication takes a place, or its mark is attached to the place at the tail of a full FIFO. -/
def markLoss (k : FilmKind) (s : State) : State :=
  if s.fli.fifo.length < Config.fifoPlaces then { s with fli := pushPlace (.loss k) s.fli }
  else { s with fli := { s.fli with fifo := markTail k s.fli.fifo } }

/-- R168: LINK_ERROR. -/
def linkError (detail : Nat) (s : State) : State :=
  raiseNotice
    { kind := .linkError, roll := 0, ordinal := 0, key := none, sheet := none, setNo := none, detail := detail } s

/-- R168: a check error. -/
def takeCheckError (film : Option FilmKind) (detail : Nat) (s : State) : State :=
  match film with
  | some k => markLoss k (linkError detail s)
  | none => linkError detail s

/-- R168: OVERRUN is set. -/
def setOverrun (s : State) : State := { s with mu := { s.mu with sticky := { s.mu.sticky with overrun := true } } }

/-- R168: an overrun; a film kind leaves its mark. -/
def overrun (c : Content) (s : State) : State :=
  match c.filmKind? with
  | some k => setOverrun { s with fli := { s.fli with fifo := markTail k s.fli.fifo } }
  | none => setOverrun s

/-- R167, R168: an inbound record whose reception has ended. -/
def takeRecord (r : LinkRecord) (s : State) : State :=
  match arrival r with
  | .checkError film detail => takeCheckError film detail s
  | .accepted c =>
    if s.fli.fifo.length < Config.fifoPlaces then { s with fli := pushPlace c s.fli } else overrun c s
  | .unknown => if s.fli.fifo.length < Config.fifoPlaces then s else setOverrun s

/-- RECORD_RECEIVED (R167). -/
def execRecordReceived (r : LinkRecord) (s : State) : Host.Outcome State Fault Refusal :=
  if s.fli.link = .up then .next (finish (takeRecord r (fresh s))) else .next (fresh s)

/-! ### The return channel (R171 to R173) -/

def sendReturn (r : LinkRecord) (s : State) : State := { s with returnOut := s.returnOut ++ [.record r] }

/-- R171 to R173: the item whose sending has ended leaves its queue. -/
def endSending (s : State) : State :=
  match s.fli.sending with
  | none => s
  | some .reply =>
    match s.fli.replies with
    | [] => { s with fli := { s.fli with sending := none } }
    | r :: rs => sendReturn (replyRecord r) { s with fli := { s.fli with replies := rs, sending := none } }
  | some .notice =>
    match s.fli.notices with
    | [] => { s with fli := { s.fli with sending := none } }
    | n :: ns => sendReturn (noticeRecord n) { s with fli := { s.fli with notices := ns, sending := none } }

/-- RETURN_SEND_END (R173). -/
def execReturnSendEnd (s : State) : Host.Outcome State Fault Refusal :=
  if s.fli.sending.isSome then .next (finish (endSending (fresh s))) else .next (fresh s)

end Sys2Proof.Machine
end

