-- ==== Sys2Proof/Machine/SetRecords.lean ====
section
/-! DEFINITION. SET RELEASE, SET DISCARD and CARD CANCEL (R131, R132, R146). -/

namespace Sys2Proof.Machine

/-- R63, R131: the destination of the open frame, RECEIVING or WAITING. -/
def openDestination (s : State) : Option Destination :=
  match s.rs.intake with
  | .receiving f | .waitSlot f | .waitReservation f => some f.dest
  | .idle | .discarding .. | .waitTarget _ => none

/-- R131: the checks of SET RELEASE and SET DISCARD, in order; the first reason that applies. -/
def setRefusal (n : Nat) (s : State) : Option Reason :=
  if Config.setCount ≤ n then some .badPosition
  else if openDestination s = some (.set n) then some .notNow
  else if (setAt s.sau n).state = .opened then some .notNow
  else none

/-- The tag and record number of the SET RELEASE that the MU may take now. -/
def headSetRelease (s : State) : Option (Byte × Nat) :=
  match mgmtHead s with
  | some (tag, .setRelease n) => some (tag, n)
  | _ => none

/-- R131: a HELD record is released and placed at once where an entry is free. -/
def releaseSet (n : Nat) (s : State) : State :=
  if (setAt s.sau n).state = .held then drainBacklog (closeSet n true s) else s

/-- R131. -/
def setReleaseOp (tag : Byte) (n : Nat) (s : State) : State :=
  match setRefusal n s with
  | some why => placeReply tag 0x44 (.refused why) s
  | none =>
    let s1 := releaseSet n s
    settle (placeReply tag 0x44 (.ok (.setState (setAt s1.sau n).state)) s1)

/-- SET_RELEASE (R131). -/
def execSetRelease (s : State) : Host.Outcome State Fault Refusal :=
  match headSetRelease s with
  | some (tag, n) => .next (finish (setReleaseOp tag n (popHead (fresh s))))
  | none => .next (fresh s)

/-- The tag and record number of the SET DISCARD that the MU may take now. -/
def headSetDiscard (s : State) : Option (Byte × Nat) :=
  match mgmtHead s with
  | some (tag, .setDiscard n) => some (tag, n)
  | _ => none

/-- R132: the slots of a card list are given back. -/
def freeCards : List CardPos → Sc → Sc
  | [], sc => sc
  | c :: cs, sc => freeCards cs (releaseSlot c.slot .filed sc)

/-- R132: a CLOSED record's item leaves the backlog, and the others keep their order. -/
def dropSetItem (n : Nat) (b : List BacklogItem) : List BacklogItem := b.filter (fun x => x != .set n)

/-- R132: a HELD or CLOSED record is emptied and its slots are freed. -/
def discardSet (n : Nat) (s : State) : State :=
  let s1 := emptySet n s
  { s1 with
    sc := freeCards (setCards (setAt s.sau n)) s1.sc
    sau := { s1.sau with backlog := dropSetItem n s1.sau.backlog } }

/-- R132: the number of slots an accepted SET DISCARD frees. -/
def discardCount (r : SetRecord) : Nat :=
  match r.state with
  | .held | .closed => (setCards r).length
  | .empty | .opened => 0

/-- R132. -/
def setDiscardOp (tag : Byte) (n : Nat) (s : State) : State :=
  match setRefusal n s with
  | some why => placeReply tag 0x45 (.refused why) s
  | none =>
    let s1 := placeReply tag 0x45 (.ok (.freed (discardCount (setAt s.sau n)))) s
    match (setAt s.sau n).state with
    | .held | .closed => settle (discardSet n s1)
    | .empty | .opened => s1

/-- SET_DISCARD (R132). -/
def execSetDiscard (s : State) : Host.Outcome State Fault Refusal :=
  match headSetDiscard s with
  | some (tag, n) => .next (finish (setDiscardOp tag n (popHead (fresh s))))
  | none => .next (fresh s)

/-- The tag of the CARD CANCEL that the MU may take now. -/
def headCardCancel (s : State) : Option Byte :=
  match mgmtHead s with
  | some (tag, .cardCancel) => some tag
  | _ => none

/-- R146: with no card in flight nothing changes. -/
def cardCancelOp (tag : Byte) (s : State) : State :=
  match s.cli.card with
  | some c => settle (cancelCard c (placeReply tag 0x46 (.ok (.cancelled (some (c.tray, c.attempt)))) s))
  | none => placeReply tag 0x46 (.ok (.cancelled none)) s

/-- CARD_CANCEL (R146). -/
def execCardCancel (s : State) : Host.Outcome State Fault Refusal :=
  match headCardCancel s with
  | some tag => .next (finish (cardCancelOp tag (popHead (fresh s))))
  | none => .next (fresh s)

end Sys2Proof.Machine
end

