-- ==== Sys2Proof/Machine/Setup.lean ====
section
/-! DEFINITION. MONITOR SETUP and RECORDER SETUP (R87 to R89, R164). -/

namespace Sys2Proof.Machine

/-- The fields of a MONITOR SETUP (Table 11-5). -/
structure MonitorFields where
  floor  : Nat
  enter  : Nat
  leave  : Nat
  enable : Byte
deriving DecidableEq, Repr

/-- The MONITOR SETUP that the MU may take now, with its tag. -/
def headMonitorSetup (s : State) : Option (Byte × MonitorFields) :=
  match mgmtHead s with
  | some (tag, .monitorSetup floor enter leave enable) =>
    some (tag, { floor := floor, enter := enter, leave := leave, enable := enable })
  | _ => none

/-- R87: the checks; the notice enable of an accepted record. -/
def monitorCheck (m : MonitorFields) : Option Bool :=
  if m.floor ≤ 255 ∧ m.enter ≤ 255 ∧ m.leave ≤ 255 then
    match flag? m.enable with
    | some on => if m.floor < m.enter ∧ m.enter < m.leave then some on else none
    | none => none
  else none

/-- R87: the thresholds and the enable are replaced together. -/
def Dm.setTo (dm : Dm) (m : MonitorFields) (on : Bool) : Dm :=
  { dm with floor := m.floor, enter := m.enter, leave := m.leave, enable := on }

/-- R89: DENSITY_WARN for a thin state that began while notices were off. -/
def warnLate (before : Dm) (on : Bool) (s : State) : State :=
  if before.enable = false ∧ on = true ∧ before.state = .thin then
    match before.last with
    | some e =>
      raiseNotice
        { kind := .densityWarn, roll := e.roll, ordinal := e.ordinal, key := none, sheet := none, setNo := none
          detail := e.db } s
    | none => s
  else s

/-- R87, R89. -/
def monitorSetupOp (tag : Byte) (m : MonitorFields) (s : State) : State :=
  match monitorCheck m with
  | none => placeReply tag 0x4B (.refused .badField) s
  | some on =>
    placeReply tag 0x4B (.ok (.monitor m.floor m.enter m.leave on s.dm.state))
      (warnLate s.dm on { s with dm := s.dm.setTo m on })

/-- MONITOR_SETUP (R87). -/
def execMonitorSetup (s : State) : Host.Outcome State Fault Refusal :=
  match headMonitorSetup s with
  | some (tag, m) => .next (finish (monitorSetupOp tag m (popHead (fresh s))))
  | none => .next (fresh s)

/-- The RECORDER SETUP that the MU may take now: its tag, dot pitch and timeout. -/
def headRecorderSetup (s : State) : Option (Byte × Nat × Nat) :=
  match mgmtHead s with
  | some (tag, .recorderSetup pr timeout) => some (tag, pr, timeout)
  | _ => none

/-- R164. -/
def recorderSetupOp (tag : Byte) (pr timeout : Nat) (s : State) : State :=
  if inRange 50 200 pr && inRange 250 8000 timeout then
    placeReply tag 0x4C (.ok (.recorder pr timeout)) { s with cli := { s.cli with pr := pr, timeout := timeout } }
  else placeReply tag 0x4C (.refused .badField) s

/-- RECORDER_SETUP (R164). -/
def execRecorderSetup (s : State) : Host.Outcome State Fault Refusal :=
  match headRecorderSetup s with
  | some (tag, pr, timeout) => .next (finish (recorderSetupOp tag pr timeout (popHead (fresh s))))
  | none => .next (fresh s)

end Sys2Proof.Machine
end

