-- ==== Sys2Proof/Machine/StatusReset.lean ====
section
/-! DEFINITION. STATUS READ, STATUS CLEAR, LINK RESET and a record of unknown kind (R174 to R176, R180; the blocks' parts
of the reset: R5, R79, R81, R93, R133, R147, R165). -/

namespace Sys2Proof.Machine

/-! ### STATUS READ and STATUS CLEAR (R174, R175) -/

/-- Table 10-4: the intake state with its wait cause. -/
def Intake.status : Intake → IntakeStatus
  | .idle => .idle
  | .receiving _ => .receiving
  | .discarding .. => .discarding
  | .waitSlot _ => .waitSlot
  | .waitReservation _ => .waitReservation
  | .waitTarget _ => .waitTarget

/-- R113: what STATUS READ reports of a set record. -/
def SetRecord.status (r : SetRecord) : SetStatus where
  state := r.state
  key := r.title.map Title.key
  present := sheetsPresent r
  sheetCount := r.title.map Title.sheetCount
  retakes := r.retakes

def Entry.isMarker : Entry → Bool
  | .marker => true
  | .job _ | .reservation => false

def Entry.isAnyJob : Entry → Bool
  | .job _ => true
  | .marker | .reservation => false

/-- R174: the items of Table 10-4 as they stand. -/
def statusReport (s : State) : StatusReport where
  intake := s.rs.intake.status
  mode := s.sc.mode
  free := countSlots Slot.isFree s.sc
  filling := countSlots (Slot.inState .filling) s.sc
  filed := countSlots (Slot.inState .filed) s.sc
  queued := countSlots (Slot.inState .queued) s.sc
  recording := countSlots (Slot.inState .recording) s.sc
  offline := countSlots Slot.isOffline s.sc
  deferral := s.sc.deferral
  sets := s.sau.sets.map SetRecord.status
  current := currentSet s.sau
  passMode := s.sau.passMode
  group := groupState s.sau
  groupFrames := s.sau.group.length
  backlog := s.sau.backlog.length
  entries := s.cs.queue.length
  jobs := s.cs.queue.countP Entry.isAnyJob
  markers := s.cs.queue.countP Entry.isMarker
  card := s.cli.card.map (fun c => (c.tray, c.attempt))
  ready := s.cli.ready
  batch := s.cli.batch
  nextTray := s.cli.nextTray
  density := s.dm.state
  sticky := s.mu.sticky
  lastReset := s.mu.lastReset
  serial1 := s.mu.serial1
  serial2 := s.mu.serial2
  station := s.mu.station

/-- The tag of the STATUS READ that the MU may take now. -/
def headStatusRead (s : State) : Option Byte :=
  match mgmtHead s with
  | some (tag, .statusRead) => some tag
  | _ => none

/-- R174. -/
def statusReadOp (tag : Byte) (s : State) : State := placeReply tag 0x4D (.ok (.status (statusReport s))) s

/-- STATUS_READ (R174). -/
def execStatusRead (s : State) : Host.Outcome State Fault Refusal :=
  match headStatusRead s with
  | some tag => .next (finish (statusReadOp tag (popHead (fresh s))))
  | none => .next (fresh s)

/-- The tag and mask of the STATUS CLEAR that the MU may take now. -/
def headStatusClear (s : State) : Option (Byte × Byte) :=
  match mgmtHead s with
  | some (tag, .statusClear mask) => some (tag, mask)
  | _ => none

/-- R175. -/
def statusClearOp (tag mask : Byte) (s : State) : State :=
  placeReply tag 0x4E (.ok (.flags (s.mu.sticky.clear mask))) { s with mu := { s.mu with sticky := s.mu.sticky.clear mask } }

/-- STATUS_CLEAR (R175). -/
def execStatusClear (s : State) : Host.Outcome State Fault Refusal :=
  match headStatusClear s with
  | some (tag, mask) => .next (finish (statusClearOp tag mask (popHead (fresh s))))
  | none => .next (fresh s)

/-! ### LINK RESET (R176) -/

/-- The tag of the LINK RESET that the MU may take now. -/
def headLinkReset (s : State) : Option Byte :=
  match mgmtHead s with
  | some (tag, .linkReset) => some tag
  | _ => none

/-- R93: an active burst is working on the slot. -/
def slotBusy (sc : Sc) (n : Nat) : Bool :=
  (match sc.write with
   | some w => w.active && w.slot == n
   | none => false)
  || (match sc.read with
      | some r => r.active && r.slot == n
      | none => false)

/-- R93 step 2: every slot that holds a chip becomes FREE; one with an active burst when that ends. -/
def resetSlots (sc : Sc) : List Slot :=
  sc.slots.zipIdx.map (fun p =>
    match p.1 with
    | .free => .free
    | .offline => .offline
    | .held st c => if slotBusy sc p.2 then .held st c else if bankOf p.2 < sc.banks then .free else .offline)

/-- R93 steps 1 and 4: a waiting burst is dropped, an active one ends. -/
def resetWrite (w : Option WriteBurst) : Option WriteBurst :=
  match w with
  | some b => if b.active then some { b with aborted := true } else none
  | none => none

def resetRead (r : Option ReadBurst) : Option ReadBurst :=
  match r with
  | some b => if b.active then some { b with discard := true, release := true } else none
  | none => none

/-- R93: the store's part of LINK RESET as it begins. A forced refresh that is pending or running keeps its count until
it has run. -/
def resetStore (sc : Sc) : Sc :=
  storeSettle
    { sc with
      slots := resetSlots sc
      write := resetWrite sc.write
      read := resetRead sc.read
      turns := readTurns
      deferral := if sc.forced.isSome then sc.deferral else 0
      mode := if sc.mode = .retaining then .waking else sc.mode
      askAgain := false }

/-- R165: the CLI's part of LINK RESET. -/
def resetCli (cli : Cli) : Cli :=
  { cli with ready := false, card := none, timer := none, failed := none, batch := 1, nextTray := 1 }

/-- R165 step 1: CARD ABANDON for a card in flight. -/
def abandonCard (s : State) : State :=
  match s.cli.card with
  | some c => sendCard (cardAbandonRecord c.tray) s
  | none => s

/-- R176: each block's part of the reset is started. The abort of an open frame raises no FRAME_LOST (log entry 37). -/
def linkResetOp (tag : Byte) (s : State) : State :=
  let s1 := emptyIntake (abandonCard s)
  { s1 with
    mu := { s1.mu with staging := [], resetTag := some tag }
    dm := { s1.dm with state := .normal, last := none }
    sc := resetStore s1.sc
    sau := .blank
    cs := .blank
    cli := resetCli s1.cli }

/-- LINK_RESET (R176). -/
def execLinkReset (s : State) : Host.Outcome State Fault Refusal :=
  match headLinkReset s with
  | some tag => .next (finish (linkResetOp tag (popHead (fresh s))))
  | none => .next (fresh s)

/-- R93: the store's part has ended: no burst, no refresh running or forced, and the mode ACTIVE. -/
def storeResetEnded (sc : Sc) : Bool :=
  !burstPresent sc && sc.refresh.isNone && sc.forced.isNone && sc.mode == .active

/-- The tag of the LINK RESET that is complete now. -/
def resetEnding (s : State) : Option Byte := if storeResetEnded s.sc then s.mu.resetTag else none

/-- R54, R172, R176 step 2: a notice whose sending has not ended stands in the queue and is discarded with it, so that its
sending ends there (log entry 9); a reply's sending goes on. -/
def keptSending (f : Fli) : Option Sending :=
  match f.sending with
  | some .reply => some .reply
  | some .notice => none
  | none => none

/-- R176 steps 1 to 3. -/
def resetCompleteOp (tag : Byte) (s : State) : State :=
  placeReply tag 0x4F (.ok .none)
    { s with
      mu := { s.mu with lastReset := .link, resetTag := none }
      fli := { s.fli with notices := [], sending := keptSending s.fli } }

/-- LINK_RESET_COMPLETE (R176). -/
def execLinkResetComplete (s : State) : Host.Outcome State Fault Refusal :=
  match resetEnding s with
  | some tag => .next (finish (resetCompleteOp tag (fresh s)))
  | none => .next (fresh s)

/-! ### A management code that names no kind (R180) -/

/-- The tag and code of the record of unknown kind that the MU may take now. -/
def headUnknown (s : State) : Option (Byte × Byte) :=
  match mgmtHead s with
  | some (tag, .unknown code) => some (tag, code)
  | _ => none

/-- R180. -/
def unknownKindOp (tag code : Byte) (s : State) : State := placeReply tag code (.refused .unknownKind) s

/-- UNKNOWN_KIND (R180). -/
def execUnknownKind (s : State) : Host.Outcome State Fault Refusal :=
  match headUnknown s with
  | some (tag, code) => .next (finish (unknownKindOp tag code (popHead (fresh s))))
  | none => .next (fresh s)

end Sys2Proof.Machine
end

