-- ==== Sys2Proof/Machine/StoreEvents.lean ====
section
/-! DEFINITION. The events of the Frame Store: bursts served, refreshes, the end of a wake (R74, R99 to R105, R109,
R155). -/

namespace Sys2Proof.Machine

/-! ### WRITE_BURST_SERVED (R74) -/

/-- The write burst that is active. -/
def activeWrite (s : State) : Option WriteBurst :=
  match s.sc.write with
  | some w => if w.active then some w else none
  | none => none

/-- R71, R79, R99: the burst's dots stand in the slot; the slot of an aborted frame is given back. -/
def endWrite (w : WriteBurst) (sc : Sc) : Sc :=
  let sc1 := { sc with write := none, dram := writeBurstDots w sc.dram }
  if w.aborted then freeSlot w.slot sc1 else sc1

/-- R74, R75: the RS goes on after its burst; after an aborted frame's burst only the store does. -/
def writeServed (w : WriteBurst) (s : State) : State :=
  let s1 := { s with sc := endWrite w s.sc }
  if w.aborted then settle s1 else advance s1

/-- WRITE_BURST_SERVED (R74). -/
def execWriteBurstServed (s : State) : Host.Outcome State Fault Refusal :=
  match activeWrite s with
  | some w =>
    if writeFits w then .next (finish (writeServed w (fresh s))) else .fault .outsideStore
  | none => .next (fresh s)

/-! ### READ_BURST_SERVED (R155) -/

/-- The read burst that is active. -/
def activeRead (s : State) : Option ReadBurst :=
  match s.sc.read with
  | some r => if r.active then some r else none
  | none => none

/-- R93, R99: the read burst ends; a slot that LINK RESET waits for is freed. -/
def endRead (r : ReadBurst) (sc : Sc) : Sc :=
  let sc1 := { sc with read := none }
  if r.release then freeSlot r.slot sc1 else sc1

/-- R155 step 1, R160, R162: the row stands in the line buffer, or is discarded with its card. -/
def bufferRow (r : ReadBurst) (row : List Byte) (cli : Cli) : Cli :=
  if r.discard then cli else { cli with card := cli.card.map (fun c => { c with buffer := some row }) }

/-- R155: a read burst has been served and the card goes on. -/
def readServed (r : ReadBurst) (s : State) : State :=
  storeOnly (pump { s with sc := endRead r s.sc, cli := bufferRow r (readRow s.sc.dram r.slot r.row) s.cli })

/-- READ_BURST_SERVED (R155). -/
def execReadBurstServed (s : State) : Host.Outcome State Fault Refusal :=
  match activeRead s with
  | some r =>
    if readFits r.slot r.row then .next (finish (readServed r (fresh s))) else .fault .outsideStore
  | none => .next (fresh s)

/-! ### Refresh and wake (R103, R104, R109) -/

/-- REFRESH_DUE (R103). -/
def execRefreshDue (s : State) : Host.Outcome State Fault Refusal :=
  .next { fresh s with sc := refreshDueStep s.sc }

/-- REFRESH_END (R104). -/
def execRefreshEnd (s : State) : Host.Outcome State Fault Refusal :=
  .next { fresh s with sc := refreshEndStep s.sc }

/-- R109: the store is ACTIVE, waiting bursts may be granted, and a FRAME HEADER at the head is taken at once. -/
def endWake (s : State) : State :=
  let s1 := storeOnly { s with sc := { s.sc with mode := .active } }
  match filmHead s1 with
  | some (.film (.header h)) => settle (takeHeader h (popHead s1))
  | _ => s1

/-- WAKE_END (R109). -/
def execWakeEnd (s : State) : Host.Outcome State Fault Refusal :=
  if s.sc.mode = .waking then .next (finish (endWake (fresh s))) else .next (fresh s)

end Sys2Proof.Machine
end

