-- ==== Sys2Proof/Machine/StoreRecords.lean ====
section
/-! DEFINITION. STORE SETUP, STORE RETAIN, STORE WAKE and STORE PURGE (R106 to R112, R64, R80, R133, R148). -/

namespace Sys2Proof.Machine

/-- R111, R112: the intake is RECEIVING. -/
def receivingNow (s : State) : Bool :=
  match s.rs.intake with
  | .receiving _ => true
  | .idle | .discarding .. | .waitSlot _ | .waitReservation _ | .waitTarget _ => false

/-! ### STORE SETUP (R111) -/

/-- The fields of the STORE SETUP that the MU may take now, with its tag. -/
def headStoreSetup (s : State) : Option (Byte × Nat × Nat) :=
  match mgmtHead s with
  | some (tag, .storeSetup interval banks) => some (tag, interval, banks)
  | _ => none

/-- R111 step 3: every slot of each bank from `n` up to the banks enabled is FREE. -/
def droppedFree (n : Nat) (sc : Sc) : Bool :=
  (List.range sc.banks).all (fun b => b < n || (bankSlots sc b).all Slot.isFree)

/-- R111: the checks in order; the first reason that applies. -/
def setupRefusal (interval banks : Nat) (s : State) : Option Reason :=
  if !(inRange 2 64 interval && inRange 1 4 banks) then some .badField
  else if receivingNow s || s.cli.card.isSome then some .notNow
  else if !droppedFree banks s.sc then some .notNow
  else none

/-- R111. -/
def storeSetupOp (tag : Byte) (interval banks : Nat) (s : State) : State :=
  match setupRefusal interval banks s with
  | some why => placeReply tag 0x47 (.refused why) s
  | none =>
    settle
      (placeReply tag 0x47 (.ok (.store interval banks))
        { s with sc := { applyBanks banks s.sc with interval := interval } })

/-- STORE_SETUP (R111). -/
def execStoreSetup (s : State) : Host.Outcome State Fault Refusal :=
  match headStoreSetup s with
  | some (tag, interval, banks) => .next (finish (storeSetupOp tag interval banks (popHead (fresh s))))
  | none => .next (fresh s)

/-! ### STORE RETAIN and STORE WAKE (R107, R110) -/

/-- The tag of the STORE RETAIN that the MU may take now. -/
def headStoreRetain (s : State) : Option Byte :=
  match mgmtHead s with
  | some (tag, .storeRetain) => some tag
  | _ => none

/-- R107: ACTIVE with the intake IDLE, no card in flight, no refresh running or forced, none deferred; and no burst of
an ended frame or card left (log entry 10). -/
def retainable (s : State) : Bool :=
  s.rs.intake == .idle && s.cli.card.isNone && s.sc.refresh.isNone && s.sc.forced.isNone && s.sc.deferral == 0
    && !burstPresent s.sc

/-- R107. -/
def storeRetainOp (tag : Byte) (s : State) : State :=
  match s.sc.mode with
  | .active =>
    if retainable s then placeReply tag 0x48 (.ok .none) { s with sc := { s.sc with mode := .retaining } }
    else placeReply tag 0x48 (.refused .notNow) s
  | .retaining => placeReply tag 0x48 (.ok .none) s
  | .waking => placeReply tag 0x48 (.refused .notNow) s

/-- STORE_RETAIN (R107). -/
def execStoreRetain (s : State) : Host.Outcome State Fault Refusal :=
  match headStoreRetain s with
  | some tag => .next (finish (storeRetainOp tag (popHead (fresh s))))
  | none => .next (fresh s)

/-- The tag of the STORE WAKE that the MU may take now. -/
def headStoreWake (s : State) : Option Byte :=
  match mgmtHead s with
  | some (tag, .storeWake) => some tag
  | _ => none

/-- R110. -/
def storeWakeOp (tag : Byte) (s : State) : State :=
  match s.sc.mode with
  | .retaining => beginWake (placeReply tag 0x49 (.ok (.mode .waking)) s)
  | .waking => placeReply tag 0x49 (.ok (.mode .waking)) s
  | .active => placeReply tag 0x49 (.ok (.mode .active)) s

/-- STORE_WAKE (R110). -/
def execStoreWake (s : State) : Host.Outcome State Fault Refusal :=
  match headStoreWake s with
  | some tag => .next (finish (storeWakeOp tag (popHead (fresh s))))
  | none => .next (fresh s)

/-! ### STORE PURGE (R112) -/

/-- The tag of the STORE PURGE that the MU may take now. -/
def headStorePurge (s : State) : Option Byte :=
  match mgmtHead s with
  | some (tag, .storePurge) => some tag
  | _ => none

/-- R80: a waiting frame is aborted, reason PURGED; its FRAME_LOST carries no set record number. -/
def purgeFrame (s : State) : State :=
  match s.rs.intake with
  | .waitSlot f | .waitReservation f => abortWith f { frameNotice .frameLost f 3 with setNo := none } s
  | .idle | .receiving _ | .discarding .. | .waitTarget _ => s

/-- R112 step 1: a slot the purge frees. -/
def Slot.purgeable (x : Slot) : Bool := x.inState .filed || x.inState .queued

/-- R99: the slot is the one of a read burst that is left of an ended card. -/
def readLeftOn (sc : Sc) (n : Nat) : Bool :=
  match sc.read with
  | some r => r.discard && r.slot == n
  | none => false

/-- R112 step 1: the FILED and QUEUED slots become FREE; the slot of a left read burst when that burst has ended (R99, log
entry 11). -/
def purgeSlots (sc : Sc) : Sc :=
  applyBanks sc.banks
    { sc with
      slots := sc.slots.zipIdx.map (fun p => if p.1.purgeable && !readLeftOn sc p.2 then .free else p.1)
      read := sc.read.map (fun r => { r with release := r.release || (r.discard && (slotAt sc r.slot).purgeable) }) }

/-- R112 step 4: the store setup returns to the configuration values. -/
def restoreSetup (sc : Sc) : Sc := { applyBanks sc.cfgBanks sc with interval := sc.cfgInterval }

/-- R148: a pending retry is taken away, and the tray sequence moves on. -/
def purgeRetry (cs : Cs) (cli : Cli) : Cli :=
  match cs.retry with
  | some _ => { cli with failed := none, nextTray := nextNumber cli.nextTray }
  | none => cli

/-- R112 steps 1 to 3 and 5. -/
def purgeAll (s : State) : State :=
  { s with
    sc := purgeSlots s.sc
    sau := .blank
    cli := purgeRetry s.cs s.cli
    cs := .blank
    mu := { s.mu with sticky := { s.mu.sticky with storeLost := true } } }

/-- R64, R127: a waiting BATCH END is carried out again on the emptied state. -/
def againTarget (s : State) : State :=
  match s.rs.intake with
  | .waitTarget t => targetOp t s
  | .idle | .receiving _ | .discarding .. | .waitSlot _ | .waitReservation _ => s

/-- R99, R105, R170: the purge waits for a burst of an ended frame or card, or for a forced refresh (log entry 11). -/
def purgeWaits (sc : Sc) : Bool :=
  sc.forced.isSome
    || (match sc.write with
        | some w => w.aborted
        | none => false)
    || (match sc.read with
        | some r => r.discard
        | none => false)

/-- R112 steps 4 and 6, at the purge's end. -/
def purgeLast (tag : Byte) (s : State) : State := placeReply tag 0x4A (.ok .none) { s with sc := restoreSetup s.sc }

/-- R99, R105, R112 steps 4 and 6: the banks and the reply now, or when the wait has ended (log entry 11). -/
def purgeEnd (tag : Byte) (s : State) : State :=
  if purgeWaits s.sc then { s with mu := { s.mu with purgeTag := some tag } } else purgeLast tag s

/-- R112. -/
def storePurgeOp (tag : Byte) (s : State) : State :=
  if receivingNow s || s.cli.card.isSome then placeReply tag 0x4A (.refused .notNow) s
  else settle (purgeEnd tag (againTarget (purgeAll (purgeFrame s))))

/-- STORE_PURGE (R112). -/
def execStorePurge (s : State) : Host.Outcome State Fault Refusal :=
  match headStorePurge s with
  | some tag => .next (finish (storePurgeOp tag (popHead (fresh s))))
  | none => .next (fresh s)

/-- The tag of the purge whose last step can be carried out now. -/
def purgeEnding (s : State) : Option Byte := if purgeWaits s.sc then none else s.mu.purgeTag

/-- R112 steps 4 and 6, R170: the last steps of a purge that had to wait. A frame that asked for a slot meanwhile is
answered now. -/
def purgeDoneOp (tag : Byte) (s : State) : State :=
  settle
    (purgeLast tag { s with mu := { s.mu with purgeTag := none }, sc := { s.sc with askAgain := true } })

/-- STORE_PURGE_DONE (R112). -/
def execStorePurgeDone (s : State) : Host.Outcome State Fault Refusal :=
  match purgeEnding s with
  | some tag => .next (finish (purgeDoneOp tag (fresh s)))
  | none => .next (fresh s)

end Sys2Proof.Machine
end

