-- ==== Sys2Proof/Machine/Tables.lean ====
section
/-! DEFINITION. The table records: TABLE WRITE, TABLE FENCE, TABLE READ, TABLE DESCRIBE (R1 to R9, R18 to R20, R21 to
R23, R32). -/

namespace Sys2Proof.Machine

/-! ### TABLE WRITE (R3) -/

/-- The fields of the TABLE WRITE that the MU may take now, with its tag. -/
def headTableWrite (s : State) : Option (Byte × Byte × Nat × List Byte) :=
  match mgmtHead s with
  | some (tag, .tableWrite kind position content) => some (tag, kind, position, content)
  | _ => none

/-- R3: a write is appended to the staging list, or refused. -/
def tableWriteOp (tag kind : Byte) (position : Nat) (content : List Byte) (s : State) : State :=
  match parseWrite kind position content with
  | .error why => placeReply tag 0x40 (.refused why) s
  | .ok w =>
    if s.mu.staging.length < Config.stagingPlaces then
      placeReply tag 0x40 (.ok (.staged (s.mu.staging.length + 1)))
        { s with mu := { s.mu with staging := s.mu.staging ++ [w] } }
    else placeReply tag 0x40 (.refused .full) s

/-- TABLE_WRITE (R3). -/
def execTableWrite (s : State) : Host.Outcome State Fault Refusal :=
  match headTableWrite s with
  | some (tag, kind, position, content) =>
    .next (finish (tableWriteOp tag kind position content (popHead (fresh s))))
  | none => .next (fresh s)

/-! ### TABLE FENCE (R8, R23) -/

/-- The valid entries, positions rising, with the entry of one position put in or taken out (R1). -/
def setIndex (p : Nat) (e : Option IndexEntry) : List (Nat × IndexEntry) → List (Nat × IndexEntry)
  | [] =>
    match e with
    | some x => [(p, x)]
    | none => []
  | (q, y) :: es =>
    if p < q then
      match e with
      | some x => (p, x) :: (q, y) :: es
      | none => (q, y) :: es
    else if p = q then
      match e with
      | some x => (p, x) :: es
      | none => es
    else (q, y) :: setIndex p e es

/-- R23: a depth other than 1, 2, 4 and 8 is stored as 1. -/
def storedDepth (d : Nat) : Nat := if d = 1 ∨ d = 2 ∨ d = 4 ∨ d = 8 then d else 1

/-- R23: a level of 0 keeps the level of the position. -/
def storedLevel (before level : Nat) : Nat := if level = 0 then before else level

/-- R23: a staged class as it is stored. -/
def storedClass (before c : ClassEntry) : ClassEntry :=
  { c with level := storedLevel before.level c.level, depth := storedDepth c.depth }

/-- R8: one staged write is applied to the active tables. -/
def applyWrite (mu : Mu) (w : StagedWrite) : Mu :=
  match w with
  | .index p e => { mu with index := setIndex p e mu.index }
  | .cls p c => { mu with classes := mu.classes.set p (storedClass (classAt mu p) c) }
  | .tone t e ink => { mu with tones := mu.tones.set t ((mu.tones.getD t []).set e ink) }

/-- R8 step 1: the staged writes in list order. -/
def applyAll (ws : List StagedWrite) (mu : Mu) : Mu := ws.foldl applyWrite mu

/-- R8 steps 1 to 3, R6. -/
def fenceTables (mu : Mu) : Mu :=
  let t := applyAll mu.staging mu
  { t with generation := mu.generation + 1, staging := [] }

/-- The tag of the TABLE FENCE that the MU may take now. -/
def headTableFence (s : State) : Option Byte :=
  match mgmtHead s with
  | some (tag, .tableFence) => some tag
  | _ => none

/-- R8. -/
def tableFenceOp (tag : Byte) (s : State) : State :=
  placeReply tag 0x41 (.ok (.generation (s.mu.generation + 1))) { s with mu := fenceTables s.mu }

/-- TABLE_FENCE (R8). -/
def execTableFence (s : State) : Host.Outcome State Fault Refusal :=
  match headTableFence s with
  | some tag => .next (finish (tableFenceOp tag (popHead (fresh s))))
  | none => .next (fresh s)

/-! ### TABLE READ (R18) -/

/-- The fields of the TABLE READ that the MU may take now, with its tag. -/
def headTableRead (s : State) : Option (Byte × Byte × Nat) :=
  match mgmtHead s with
  | some (tag, .tableRead kind position) => some (tag, kind, position)
  | _ => none

/-- R1: the entry of a position, none when it is invalid. -/
def indexAt (mu : Mu) (p : Nat) : Option IndexEntry := (mu.index.find? (fun x => x.1 == p)).map (·.2)

/-- R32: an active ink value; a TONE position is the table number, then the entry number. -/
def toneAt (mu : Mu) (position : Nat) : Byte := (mu.tones.getD (position / 256) []).getD (position % 256) 0

/-- R18: the result of a TABLE READ. -/
def readTable (mu : Mu) (kind : Byte) (position : Nat) : ReplyResult :=
  match tableKind? kind with
  | none => .refused .badField
  | some k =>
    if positionOk k position then
      match k with
      | .index => .ok (.indexEntry mu.generation (indexAt mu position))
      | .cls => .ok (.classEntry mu.generation (classAt mu position))
      | .tone => .ok (.toneEntry mu.generation (toneAt mu position))
    else .refused .badPosition

/-- R18. -/
def tableReadOp (tag kind : Byte) (position : Nat) (s : State) : State :=
  placeReply tag 0x42 (readTable s.mu kind position) s

/-- TABLE_READ (R18). -/
def execTableRead (s : State) : Host.Outcome State Fault Refusal :=
  match headTableRead s with
  | some (tag, kind, position) => .next (finish (tableReadOp tag kind position (popHead (fresh s))))
  | none => .next (fresh s)

/-! ### TABLE DESCRIBE (R19) -/

/-- The form of the TABLE DESCRIBE that the MU may take now, with its tag. -/
def headTableDescribe (s : State) : Option (Byte × Byte) :=
  match mgmtHead s with
  | some (tag, .tableDescribe form) => some (tag, form)
  | _ => none

/-- R19: the highest position that holds a valid entry. -/
def highestValid (mu : Mu) : Option Nat := (mu.index.getLast?).map (·.1)

/-- R19: the lowest position from `p` on that holds an invalid entry, the valid positions rising. -/
def lowestInvalidFrom (p : Nat) : List (Nat × IndexEntry) → Option Nat
  | [] => if p < Config.indexPositions then some p else none
  | x :: xs => if x.1 = p then lowestInvalidFrom (p + 1) xs else some p

/-- R19: the result of a TABLE DESCRIBE. -/
def describeTables (mu : Mu) (form : Byte) : ReplyResult :=
  match form.toNat with
  | 0 => .ok (.describeShort mu.index.length (mu.generation.toNat % 65536))
  | 1 =>
    .ok (.describeLong mu.index.length mu.generation mu.staging.length (highestValid mu) (lowestInvalidFrom 0 mu.index))
  | _ => .refused .badField

/-- R19. -/
def tableDescribeOp (tag form : Byte) (s : State) : State := placeReply tag 0x43 (describeTables s.mu form) s

/-- TABLE_DESCRIBE (R19). -/
def execTableDescribe (s : State) : Host.Outcome State Fault Refusal :=
  match headTableDescribe s with
  | some (tag, form) => .next (finish (tableDescribeOp tag form (popHead (fresh s))))
  | none => .next (fresh s)

end Sys2Proof.Machine
end

