-- ==== Sys2Proof/Machine/Dispatch.lean ====
section
/-! DEFINITION. The meaning of every command, one arm for each row of the table. -/

namespace Sys2Proof.Machine

def exec (i : Instr) (s : State) : Host.Outcome State Fault Refusal :=
  match i with
  | .powerOn => Sys2Proof.Machine.execPowerOn s
  | .loadingEnd words => Sys2Proof.Machine.execLoadingEnd words s
  | .linkUp => Sys2Proof.Machine.execLinkUp s
  | .linkLoss => Sys2Proof.Machine.execLinkLoss s
  | .recordReceived r => Sys2Proof.Machine.execRecordReceived r s
  | .frameHeader => Sys2Proof.Machine.execFrameHeader s
  | .line => Sys2Proof.Machine.execLine s
  | .frameEnd => Sys2Proof.Machine.execFrameEnd s
  | .start => Sys2Proof.Machine.execStart s
  | .endTarget => Sys2Proof.Machine.execEndTarget s
  | .batchEnd => Sys2Proof.Machine.execBatchEnd s
  | .lossIndication => Sys2Proof.Machine.execLossIndication s
  | .tableWrite => Sys2Proof.Machine.execTableWrite s
  | .tableFence => Sys2Proof.Machine.execTableFence s
  | .tableRead => Sys2Proof.Machine.execTableRead s
  | .tableDescribe => Sys2Proof.Machine.execTableDescribe s
  | .setRelease => Sys2Proof.Machine.execSetRelease s
  | .setDiscard => Sys2Proof.Machine.execSetDiscard s
  | .cardCancel => Sys2Proof.Machine.execCardCancel s
  | .storeSetup => Sys2Proof.Machine.execStoreSetup s
  | .storeRetain => Sys2Proof.Machine.execStoreRetain s
  | .storeWake => Sys2Proof.Machine.execStoreWake s
  | .storePurge => Sys2Proof.Machine.execStorePurge s
  | .storePurgeDone => Sys2Proof.Machine.execStorePurgeDone s
  | .monitorSetup => Sys2Proof.Machine.execMonitorSetup s
  | .recorderSetup => Sys2Proof.Machine.execRecorderSetup s
  | .statusRead => Sys2Proof.Machine.execStatusRead s
  | .statusClear => Sys2Proof.Machine.execStatusClear s
  | .linkReset => Sys2Proof.Machine.execLinkReset s
  | .linkResetComplete => Sys2Proof.Machine.execLinkResetComplete s
  | .unknownKind => Sys2Proof.Machine.execUnknownKind s
  | .writeBurstServed => Sys2Proof.Machine.execWriteBurstServed s
  | .readBurstServed => Sys2Proof.Machine.execReadBurstServed s
  | .refreshDue => Sys2Proof.Machine.execRefreshDue s
  | .refreshEnd => Sys2Proof.Machine.execRefreshEnd s
  | .wakeEnd => Sys2Proof.Machine.execWakeEnd s
  | .responseTimerExpiry => Sys2Proof.Machine.execResponseTimerExpiry s
  | .recorderState ready => Sys2Proof.Machine.execRecorderState ready s
  | .cardAccepted echo => Sys2Proof.Machine.execCardAccepted echo s
  | .cardSpoiled echo reason => Sys2Proof.Machine.execCardSpoiled echo reason s
  | .recorderRestarted => Sys2Proof.Machine.execRecorderRestarted s
  | .recorderMessageDropped r => Sys2Proof.Machine.execRecorderMessageDropped r s
  | .returnSendEnd => Sys2Proof.Machine.execReturnSendEnd s

end Sys2Proof.Machine
end

