-- ==== Sys2Proof/Laws/State.lean ====
section
/-! SUPPORT. One lemma for each field of State under each of the small updates, all true by unfolding. -/

namespace Sys2Proof.Machine

/-! ### fresh -/

@[simp] theorem fresh_pending (s : State) : (fresh s).pending = s.pending := rfl
@[simp] theorem fresh_fli (s : State) : (fresh s).fli = s.fli := rfl
@[simp] theorem fresh_mu (s : State) : (fresh s).mu = s.mu := rfl
@[simp] theorem fresh_dm (s : State) : (fresh s).dm = s.dm := rfl
@[simp] theorem fresh_rs (s : State) : (fresh s).rs = s.rs := rfl
@[simp] theorem fresh_sc (s : State) : (fresh s).sc = s.sc := rfl
@[simp] theorem fresh_sau (s : State) : (fresh s).sau = s.sau := rfl
@[simp] theorem fresh_cs (s : State) : (fresh s).cs = s.cs := rfl
@[simp] theorem fresh_cli (s : State) : (fresh s).cli = s.cli := rfl
@[simp] theorem fresh_cardOut (s : State) : (fresh s).cardOut = [] := rfl
@[simp] theorem fresh_returnOut (s : State) : (fresh s).returnOut = [] := rfl
@[simp] theorem fresh_freeCount (s : State) : (fresh s).freeCount = s.freeCount := rfl

/-! ### placeReply -/

@[simp] theorem placeReply_pending (tag code : Byte) (r : ReplyResult) (s : State) :
    (placeReply tag code r s).pending = s.pending := rfl
@[simp] theorem placeReply_fli (tag code : Byte) (r : ReplyResult) (s : State) :
    (placeReply tag code r s).fli = { s.fli with replies := s.fli.replies ++ [{ tag := tag, code := code, result := r }] } := rfl
@[simp] theorem placeReply_mu (tag code : Byte) (r : ReplyResult) (s : State) :
    (placeReply tag code r s).mu = s.mu := rfl
@[simp] theorem placeReply_dm (tag code : Byte) (r : ReplyResult) (s : State) :
    (placeReply tag code r s).dm = s.dm := rfl
@[simp] theorem placeReply_rs (tag code : Byte) (r : ReplyResult) (s : State) :
    (placeReply tag code r s).rs = s.rs := rfl
@[simp] theorem placeReply_sc (tag code : Byte) (r : ReplyResult) (s : State) :
    (placeReply tag code r s).sc = s.sc := rfl
@[simp] theorem placeReply_sau (tag code : Byte) (r : ReplyResult) (s : State) :
    (placeReply tag code r s).sau = s.sau := rfl
@[simp] theorem placeReply_cs (tag code : Byte) (r : ReplyResult) (s : State) :
    (placeReply tag code r s).cs = s.cs := rfl
@[simp] theorem placeReply_cli (tag code : Byte) (r : ReplyResult) (s : State) :
    (placeReply tag code r s).cli = s.cli := rfl
@[simp] theorem placeReply_cardOut (tag code : Byte) (r : ReplyResult) (s : State) :
    (placeReply tag code r s).cardOut = s.cardOut := rfl
@[simp] theorem placeReply_returnOut (tag code : Byte) (r : ReplyResult) (s : State) :
    (placeReply tag code r s).returnOut = s.returnOut := rfl
@[simp] theorem placeReply_freeCount (tag code : Byte) (r : ReplyResult) (s : State) :
    (placeReply tag code r s).freeCount = s.freeCount := rfl

/-! ### popHead -/

@[simp] theorem popHead_pending (s : State) : (popHead s).pending = s.pending := rfl
@[simp] theorem popHead_fli (s : State) : (popHead s).fli = takeHead s.fli := rfl
@[simp] theorem popHead_mu (s : State) : (popHead s).mu = s.mu := rfl
@[simp] theorem popHead_dm (s : State) : (popHead s).dm = s.dm := rfl
@[simp] theorem popHead_rs (s : State) : (popHead s).rs = s.rs := rfl
@[simp] theorem popHead_sc (s : State) : (popHead s).sc = s.sc := rfl
@[simp] theorem popHead_sau (s : State) : (popHead s).sau = s.sau := rfl
@[simp] theorem popHead_cs (s : State) : (popHead s).cs = s.cs := rfl
@[simp] theorem popHead_cli (s : State) : (popHead s).cli = s.cli := rfl
@[simp] theorem popHead_cardOut (s : State) : (popHead s).cardOut = s.cardOut := rfl
@[simp] theorem popHead_returnOut (s : State) : (popHead s).returnOut = s.returnOut := rfl
@[simp] theorem popHead_freeCount (s : State) : (popHead s).freeCount = s.freeCount := rfl

/-! ### joinBacklog -/

@[simp] theorem joinBacklog_pending (x : BacklogItem) (s : State) : (joinBacklog x s).pending = s.pending := rfl
@[simp] theorem joinBacklog_fli (x : BacklogItem) (s : State) : (joinBacklog x s).fli = s.fli := rfl
@[simp] theorem joinBacklog_mu (x : BacklogItem) (s : State) : (joinBacklog x s).mu = s.mu := rfl
@[simp] theorem joinBacklog_dm (x : BacklogItem) (s : State) : (joinBacklog x s).dm = s.dm := rfl
@[simp] theorem joinBacklog_rs (x : BacklogItem) (s : State) : (joinBacklog x s).rs = s.rs := rfl
@[simp] theorem joinBacklog_sc (x : BacklogItem) (s : State) : (joinBacklog x s).sc = s.sc := rfl
@[simp] theorem joinBacklog_sau (x : BacklogItem) (s : State) :
    (joinBacklog x s).sau = { s.sau with backlog := s.sau.backlog ++ [x] } := rfl
@[simp] theorem joinBacklog_cs (x : BacklogItem) (s : State) : (joinBacklog x s).cs = s.cs := rfl
@[simp] theorem joinBacklog_cli (x : BacklogItem) (s : State) : (joinBacklog x s).cli = s.cli := rfl
@[simp] theorem joinBacklog_cardOut (x : BacklogItem) (s : State) : (joinBacklog x s).cardOut = s.cardOut := rfl
@[simp] theorem joinBacklog_returnOut (x : BacklogItem) (s : State) :
    (joinBacklog x s).returnOut = s.returnOut := rfl
@[simp] theorem joinBacklog_freeCount (x : BacklogItem) (s : State) :
    (joinBacklog x s).freeCount = s.freeCount := rfl

/-! ### changeSet -/

@[simp] theorem changeSet_pending (n : Nat) (r : SetRecord) (s : State) :
    (changeSet n r s).pending = s.pending := rfl
@[simp] theorem changeSet_fli (n : Nat) (r : SetRecord) (s : State) : (changeSet n r s).fli = s.fli := rfl
@[simp] theorem changeSet_mu (n : Nat) (r : SetRecord) (s : State) : (changeSet n r s).mu = s.mu := rfl
@[simp] theorem changeSet_dm (n : Nat) (r : SetRecord) (s : State) : (changeSet n r s).dm = s.dm := rfl
@[simp] theorem changeSet_rs (n : Nat) (r : SetRecord) (s : State) : (changeSet n r s).rs = s.rs := rfl
@[simp] theorem changeSet_sc (n : Nat) (r : SetRecord) (s : State) :
    (changeSet n r s).sc = { s.sc with askAgain := true } := rfl
@[simp] theorem changeSet_sau (n : Nat) (r : SetRecord) (s : State) : (changeSet n r s).sau = putSet n r s.sau := rfl
@[simp] theorem changeSet_cs (n : Nat) (r : SetRecord) (s : State) : (changeSet n r s).cs = s.cs := rfl
@[simp] theorem changeSet_cli (n : Nat) (r : SetRecord) (s : State) : (changeSet n r s).cli = s.cli := rfl
@[simp] theorem changeSet_cardOut (n : Nat) (r : SetRecord) (s : State) :
    (changeSet n r s).cardOut = s.cardOut := rfl
@[simp] theorem changeSet_returnOut (n : Nat) (r : SetRecord) (s : State) :
    (changeSet n r s).returnOut = s.returnOut := rfl
@[simp] theorem changeSet_freeCount (n : Nat) (r : SetRecord) (s : State) :
    (changeSet n r s).freeCount = s.freeCount := rfl

/-! ### enqueue -/

@[simp] theorem enqueue_pending (e : Entry) (s : State) : (enqueue e s).pending = s.pending := rfl
@[simp] theorem enqueue_fli (e : Entry) (s : State) : (enqueue e s).fli = s.fli := rfl
@[simp] theorem enqueue_mu (e : Entry) (s : State) : (enqueue e s).mu = s.mu := rfl
@[simp] theorem enqueue_dm (e : Entry) (s : State) : (enqueue e s).dm = s.dm := rfl
@[simp] theorem enqueue_rs (e : Entry) (s : State) : (enqueue e s).rs = s.rs := rfl
@[simp] theorem enqueue_sc (e : Entry) (s : State) : (enqueue e s).sc = s.sc := rfl
@[simp] theorem enqueue_sau (e : Entry) (s : State) : (enqueue e s).sau = s.sau := rfl
@[simp] theorem enqueue_cs (e : Entry) (s : State) :
    (enqueue e s).cs = { s.cs with queue := s.cs.queue ++ [e] } := rfl
@[simp] theorem enqueue_cli (e : Entry) (s : State) : (enqueue e s).cli = s.cli := rfl
@[simp] theorem enqueue_cardOut (e : Entry) (s : State) : (enqueue e s).cardOut = s.cardOut := rfl
@[simp] theorem enqueue_returnOut (e : Entry) (s : State) : (enqueue e s).returnOut = s.returnOut := rfl
@[simp] theorem enqueue_freeCount (e : Entry) (s : State) : (enqueue e s).freeCount = s.freeCount := rfl

/-! ### noteEntryFreed -/

@[simp] theorem noteEntryFreed_pending (s : State) : (noteEntryFreed s).pending = s.pending := rfl
@[simp] theorem noteEntryFreed_fli (s : State) : (noteEntryFreed s).fli = s.fli := rfl
@[simp] theorem noteEntryFreed_mu (s : State) : (noteEntryFreed s).mu = s.mu := rfl
@[simp] theorem noteEntryFreed_dm (s : State) : (noteEntryFreed s).dm = s.dm := rfl
@[simp] theorem noteEntryFreed_rs (s : State) : (noteEntryFreed s).rs = s.rs := rfl
@[simp] theorem noteEntryFreed_sc (s : State) : (noteEntryFreed s).sc = { s.sc with askAgain := true } := rfl
@[simp] theorem noteEntryFreed_sau (s : State) : (noteEntryFreed s).sau = s.sau := rfl
@[simp] theorem noteEntryFreed_cs (s : State) : (noteEntryFreed s).cs = s.cs := rfl
@[simp] theorem noteEntryFreed_cli (s : State) : (noteEntryFreed s).cli = s.cli := rfl
@[simp] theorem noteEntryFreed_cardOut (s : State) : (noteEntryFreed s).cardOut = s.cardOut := rfl
@[simp] theorem noteEntryFreed_returnOut (s : State) : (noteEntryFreed s).returnOut = s.returnOut := rfl
@[simp] theorem noteEntryFreed_freeCount (s : State) : (noteEntryFreed s).freeCount = s.freeCount := rfl

/-! ### takeJob -/

@[simp] theorem takeJob_pending (j : Job) (s : State) : (takeJob j s).pending = s.pending := rfl
@[simp] theorem takeJob_fli (j : Job) (s : State) : (takeJob j s).fli = s.fli := rfl
@[simp] theorem takeJob_mu (j : Job) (s : State) : (takeJob j s).mu = s.mu := rfl
@[simp] theorem takeJob_dm (j : Job) (s : State) : (takeJob j s).dm = s.dm := rfl
@[simp] theorem takeJob_rs (j : Job) (s : State) : (takeJob j s).rs = s.rs := rfl
@[simp] theorem takeJob_sc (j : Job) (s : State) : (takeJob j s).sc = queueSlots j.id 1 j.cards s.sc := rfl
@[simp] theorem takeJob_sau (j : Job) (s : State) : (takeJob j s).sau = s.sau := rfl
@[simp] theorem takeJob_cs (j : Job) (s : State) : (takeJob j s).cs = { s.cs with nextId := s.cs.nextId + 1 } := rfl
@[simp] theorem takeJob_cli (j : Job) (s : State) : (takeJob j s).cli = s.cli := rfl
@[simp] theorem takeJob_cardOut (j : Job) (s : State) : (takeJob j s).cardOut = s.cardOut := rfl
@[simp] theorem takeJob_returnOut (j : Job) (s : State) : (takeJob j s).returnOut = s.returnOut := rfl
@[simp] theorem takeJob_freeCount (j : Job) (s : State) : (takeJob j s).freeCount = s.freeCount := rfl

/-! ### setPassMode -/

@[simp] theorem setPassMode_pending (b : Bool) (s : State) : (setPassMode b s).pending = s.pending := rfl
@[simp] theorem setPassMode_fli (b : Bool) (s : State) : (setPassMode b s).fli = s.fli := rfl
@[simp] theorem setPassMode_mu (b : Bool) (s : State) : (setPassMode b s).mu = s.mu := rfl
@[simp] theorem setPassMode_dm (b : Bool) (s : State) : (setPassMode b s).dm = s.dm := rfl
@[simp] theorem setPassMode_rs (b : Bool) (s : State) : (setPassMode b s).rs = s.rs := rfl
@[simp] theorem setPassMode_sc (b : Bool) (s : State) : (setPassMode b s).sc = s.sc := rfl
@[simp] theorem setPassMode_sau (b : Bool) (s : State) : (setPassMode b s).sau = { s.sau with passMode := b } := rfl
@[simp] theorem setPassMode_cs (b : Bool) (s : State) : (setPassMode b s).cs = s.cs := rfl
@[simp] theorem setPassMode_cli (b : Bool) (s : State) : (setPassMode b s).cli = s.cli := rfl
@[simp] theorem setPassMode_cardOut (b : Bool) (s : State) : (setPassMode b s).cardOut = s.cardOut := rfl
@[simp] theorem setPassMode_returnOut (b : Bool) (s : State) : (setPassMode b s).returnOut = s.returnOut := rfl
@[simp] theorem setPassMode_freeCount (b : Bool) (s : State) : (setPassMode b s).freeCount = s.freeCount := rfl

/-! ### sendCard -/

@[simp] theorem sendCard_pending (r : LinkRecord) (s : State) : (sendCard r s).pending = s.pending := rfl
@[simp] theorem sendCard_fli (r : LinkRecord) (s : State) : (sendCard r s).fli = s.fli := rfl
@[simp] theorem sendCard_mu (r : LinkRecord) (s : State) : (sendCard r s).mu = s.mu := rfl
@[simp] theorem sendCard_dm (r : LinkRecord) (s : State) : (sendCard r s).dm = s.dm := rfl
@[simp] theorem sendCard_rs (r : LinkRecord) (s : State) : (sendCard r s).rs = s.rs := rfl
@[simp] theorem sendCard_sc (r : LinkRecord) (s : State) : (sendCard r s).sc = s.sc := rfl
@[simp] theorem sendCard_sau (r : LinkRecord) (s : State) : (sendCard r s).sau = s.sau := rfl
@[simp] theorem sendCard_cs (r : LinkRecord) (s : State) : (sendCard r s).cs = s.cs := rfl
@[simp] theorem sendCard_cli (r : LinkRecord) (s : State) : (sendCard r s).cli = s.cli := rfl
@[simp] theorem sendCard_cardOut (r : LinkRecord) (s : State) : (sendCard r s).cardOut = s.cardOut ++ [r] := rfl
@[simp] theorem sendCard_returnOut (r : LinkRecord) (s : State) : (sendCard r s).returnOut = s.returnOut := rfl
@[simp] theorem sendCard_freeCount (r : LinkRecord) (s : State) : (sendCard r s).freeCount = s.freeCount := rfl

/-! ### sendReturn -/

@[simp] theorem sendReturn_pending (r : LinkRecord) (s : State) : (sendReturn r s).pending = s.pending := rfl
@[simp] theorem sendReturn_fli (r : LinkRecord) (s : State) : (sendReturn r s).fli = s.fli := rfl
@[simp] theorem sendReturn_mu (r : LinkRecord) (s : State) : (sendReturn r s).mu = s.mu := rfl
@[simp] theorem sendReturn_dm (r : LinkRecord) (s : State) : (sendReturn r s).dm = s.dm := rfl
@[simp] theorem sendReturn_rs (r : LinkRecord) (s : State) : (sendReturn r s).rs = s.rs := rfl
@[simp] theorem sendReturn_sc (r : LinkRecord) (s : State) : (sendReturn r s).sc = s.sc := rfl
@[simp] theorem sendReturn_sau (r : LinkRecord) (s : State) : (sendReturn r s).sau = s.sau := rfl
@[simp] theorem sendReturn_cs (r : LinkRecord) (s : State) : (sendReturn r s).cs = s.cs := rfl
@[simp] theorem sendReturn_cli (r : LinkRecord) (s : State) : (sendReturn r s).cli = s.cli := rfl
@[simp] theorem sendReturn_cardOut (r : LinkRecord) (s : State) : (sendReturn r s).cardOut = s.cardOut := rfl
@[simp] theorem sendReturn_returnOut (r : LinkRecord) (s : State) :
    (sendReturn r s).returnOut = s.returnOut ++ [.record r] := rfl
@[simp] theorem sendReturn_freeCount (r : LinkRecord) (s : State) : (sendReturn r s).freeCount = s.freeCount := rfl

/-! ### setIntake -/

@[simp] theorem setIntake_pending (i : Intake) (s : State) : (setIntake i s).pending = s.pending := rfl
@[simp] theorem setIntake_fli (i : Intake) (s : State) : (setIntake i s).fli = s.fli := rfl
@[simp] theorem setIntake_mu (i : Intake) (s : State) : (setIntake i s).mu = s.mu := rfl
@[simp] theorem setIntake_dm (i : Intake) (s : State) : (setIntake i s).dm = s.dm := rfl
@[simp] theorem setIntake_rs (i : Intake) (s : State) : (setIntake i s).rs = { s.rs with intake := i } := rfl
@[simp] theorem setIntake_sc (i : Intake) (s : State) : (setIntake i s).sc = s.sc := rfl
@[simp] theorem setIntake_sau (i : Intake) (s : State) : (setIntake i s).sau = s.sau := rfl
@[simp] theorem setIntake_cs (i : Intake) (s : State) : (setIntake i s).cs = s.cs := rfl
@[simp] theorem setIntake_cli (i : Intake) (s : State) : (setIntake i s).cli = s.cli := rfl
@[simp] theorem setIntake_cardOut (i : Intake) (s : State) : (setIntake i s).cardOut = s.cardOut := rfl
@[simp] theorem setIntake_returnOut (i : Intake) (s : State) : (setIntake i s).returnOut = s.returnOut := rfl
@[simp] theorem setIntake_freeCount (i : Intake) (s : State) : (setIntake i s).freeCount = s.freeCount := rfl

/-! ### setWork -/

@[simp] theorem setWork_pending (w : Work) (s : State) : (setWork w s).pending = s.pending := rfl
@[simp] theorem setWork_fli (w : Work) (s : State) : (setWork w s).fli = s.fli := rfl
@[simp] theorem setWork_mu (w : Work) (s : State) : (setWork w s).mu = s.mu := rfl
@[simp] theorem setWork_dm (w : Work) (s : State) : (setWork w s).dm = s.dm := rfl
@[simp] theorem setWork_rs (w : Work) (s : State) : (setWork w s).rs = { s.rs with work := w } := rfl
@[simp] theorem setWork_sc (w : Work) (s : State) : (setWork w s).sc = s.sc := rfl
@[simp] theorem setWork_sau (w : Work) (s : State) : (setWork w s).sau = s.sau := rfl
@[simp] theorem setWork_cs (w : Work) (s : State) : (setWork w s).cs = s.cs := rfl
@[simp] theorem setWork_cli (w : Work) (s : State) : (setWork w s).cli = s.cli := rfl
@[simp] theorem setWork_cardOut (w : Work) (s : State) : (setWork w s).cardOut = s.cardOut := rfl
@[simp] theorem setWork_returnOut (w : Work) (s : State) : (setWork w s).returnOut = s.returnOut := rfl
@[simp] theorem setWork_freeCount (w : Work) (s : State) : (setWork w s).freeCount = s.freeCount := rfl

/-! ### emptyIntake -/

@[simp] theorem emptyIntake_pending (s : State) : (emptyIntake s).pending = s.pending := rfl
@[simp] theorem emptyIntake_fli (s : State) : (emptyIntake s).fli = s.fli := rfl
@[simp] theorem emptyIntake_mu (s : State) : (emptyIntake s).mu = s.mu := rfl
@[simp] theorem emptyIntake_dm (s : State) : (emptyIntake s).dm = s.dm := rfl
@[simp] theorem emptyIntake_rs (s : State) :
    (emptyIntake s).rs = { intake := .idle, work := .none, tone := none, geometry := none } := rfl
@[simp] theorem emptyIntake_sc (s : State) : (emptyIntake s).sc = s.sc := rfl
@[simp] theorem emptyIntake_sau (s : State) : (emptyIntake s).sau = s.sau := rfl
@[simp] theorem emptyIntake_cs (s : State) : (emptyIntake s).cs = s.cs := rfl
@[simp] theorem emptyIntake_cli (s : State) : (emptyIntake s).cli = s.cli := rfl
@[simp] theorem emptyIntake_cardOut (s : State) : (emptyIntake s).cardOut = s.cardOut := rfl
@[simp] theorem emptyIntake_returnOut (s : State) : (emptyIntake s).returnOut = s.returnOut := rfl
@[simp] theorem emptyIntake_freeCount (s : State) : (emptyIntake s).freeCount = s.freeCount := rfl

/-! ### storeOnly -/

@[simp] theorem storeOnly_pending (s : State) : (storeOnly s).pending = s.pending := rfl
@[simp] theorem storeOnly_fli (s : State) : (storeOnly s).fli = s.fli := rfl
@[simp] theorem storeOnly_mu (s : State) : (storeOnly s).mu = s.mu := rfl
@[simp] theorem storeOnly_dm (s : State) : (storeOnly s).dm = s.dm := rfl
@[simp] theorem storeOnly_rs (s : State) : (storeOnly s).rs = s.rs := rfl
@[simp] theorem storeOnly_sc (s : State) : (storeOnly s).sc = storeSettle s.sc := rfl
@[simp] theorem storeOnly_sau (s : State) : (storeOnly s).sau = s.sau := rfl
@[simp] theorem storeOnly_cs (s : State) : (storeOnly s).cs = s.cs := rfl
@[simp] theorem storeOnly_cli (s : State) : (storeOnly s).cli = s.cli := rfl
@[simp] theorem storeOnly_cardOut (s : State) : (storeOnly s).cardOut = s.cardOut := rfl
@[simp] theorem storeOnly_returnOut (s : State) : (storeOnly s).returnOut = s.returnOut := rfl
@[simp] theorem storeOnly_freeCount (s : State) : (storeOnly s).freeCount = s.freeCount := rfl

/-! ### setOverrun -/

@[simp] theorem setOverrun_pending (s : State) : (setOverrun s).pending = s.pending := rfl
@[simp] theorem setOverrun_fli (s : State) : (setOverrun s).fli = s.fli := rfl
@[simp] theorem setOverrun_mu (s : State) :
    (setOverrun s).mu = { s.mu with sticky := { s.mu.sticky with overrun := true } } := rfl
@[simp] theorem setOverrun_dm (s : State) : (setOverrun s).dm = s.dm := rfl
@[simp] theorem setOverrun_rs (s : State) : (setOverrun s).rs = s.rs := rfl
@[simp] theorem setOverrun_sc (s : State) : (setOverrun s).sc = s.sc := rfl
@[simp] theorem setOverrun_sau (s : State) : (setOverrun s).sau = s.sau := rfl
@[simp] theorem setOverrun_cs (s : State) : (setOverrun s).cs = s.cs := rfl
@[simp] theorem setOverrun_cli (s : State) : (setOverrun s).cli = s.cli := rfl
@[simp] theorem setOverrun_cardOut (s : State) : (setOverrun s).cardOut = s.cardOut := rfl
@[simp] theorem setOverrun_returnOut (s : State) : (setOverrun s).returnOut = s.returnOut := rfl
@[simp] theorem setOverrun_freeCount (s : State) : (setOverrun s).freeCount = s.freeCount := rfl

/-! ### grantSlot -/

@[simp] theorem grantSlot_pending (f : FrameCtx) (n : Nat) (s : State) : (grantSlot f n s).pending = s.pending := rfl
@[simp] theorem grantSlot_fli (f : FrameCtx) (n : Nat) (s : State) : (grantSlot f n s).fli = s.fli := rfl
@[simp] theorem grantSlot_mu (f : FrameCtx) (n : Nat) (s : State) : (grantSlot f n s).mu = s.mu := rfl
@[simp] theorem grantSlot_dm (f : FrameCtx) (n : Nat) (s : State) : (grantSlot f n s).dm = s.dm := rfl
@[simp] theorem grantSlot_rs (f : FrameCtx) (n : Nat) (s : State) :
    (grantSlot f n s).rs = { s.rs with intake := .receiving { f with slot := some n } } := rfl
@[simp] theorem grantSlot_sc (f : FrameCtx) (n : Nat) (s : State) :
    (grantSlot f n s).sc = setSlot n (.held .filling (grantedChip f s.rs.geometry)) s.sc := rfl
@[simp] theorem grantSlot_sau (f : FrameCtx) (n : Nat) (s : State) : (grantSlot f n s).sau = s.sau := rfl
@[simp] theorem grantSlot_cs (f : FrameCtx) (n : Nat) (s : State) : (grantSlot f n s).cs = s.cs := rfl
@[simp] theorem grantSlot_cli (f : FrameCtx) (n : Nat) (s : State) : (grantSlot f n s).cli = s.cli := rfl
@[simp] theorem grantSlot_cardOut (f : FrameCtx) (n : Nat) (s : State) : (grantSlot f n s).cardOut = s.cardOut := rfl
@[simp] theorem grantSlot_returnOut (f : FrameCtx) (n : Nat) (s : State) :
    (grantSlot f n s).returnOut = s.returnOut := rfl
@[simp] theorem grantSlot_freeCount (f : FrameCtx) (n : Nat) (s : State) :
    (grantSlot f n s).freeCount = s.freeCount := rfl

/-! ### purgeAll -/

@[simp] theorem purgeAll_pending (s : State) : (purgeAll s).pending = s.pending := rfl
@[simp] theorem purgeAll_fli (s : State) : (purgeAll s).fli = s.fli := rfl
@[simp] theorem purgeAll_mu (s : State) :
    (purgeAll s).mu = { s.mu with sticky := { s.mu.sticky with storeLost := true } } := rfl
@[simp] theorem purgeAll_dm (s : State) : (purgeAll s).dm = s.dm := rfl
@[simp] theorem purgeAll_rs (s : State) : (purgeAll s).rs = s.rs := rfl
@[simp] theorem purgeAll_sc (s : State) : (purgeAll s).sc = purgeSlots s.sc := rfl
@[simp] theorem purgeAll_sau (s : State) : (purgeAll s).sau = .blank := rfl
@[simp] theorem purgeAll_cs (s : State) : (purgeAll s).cs = .blank := rfl
@[simp] theorem purgeAll_cli (s : State) : (purgeAll s).cli = purgeRetry s.cs s.cli := rfl
@[simp] theorem purgeAll_cardOut (s : State) : (purgeAll s).cardOut = s.cardOut := rfl
@[simp] theorem purgeAll_returnOut (s : State) : (purgeAll s).returnOut = s.returnOut := rfl
@[simp] theorem purgeAll_freeCount (s : State) : (purgeAll s).freeCount = s.freeCount := rfl

/-! ### purgeLast -/

@[simp] theorem purgeLast_pending (tag : Byte) (s : State) : (purgeLast tag s).pending = s.pending := rfl
@[simp] theorem purgeLast_fli (tag : Byte) (s : State) :
    (purgeLast tag s).fli = { s.fli with replies := s.fli.replies ++ [{ tag := tag, code := 0x4A, result := .ok .none }] } := rfl
@[simp] theorem purgeLast_mu (tag : Byte) (s : State) : (purgeLast tag s).mu = s.mu := rfl
@[simp] theorem purgeLast_dm (tag : Byte) (s : State) : (purgeLast tag s).dm = s.dm := rfl
@[simp] theorem purgeLast_rs (tag : Byte) (s : State) : (purgeLast tag s).rs = s.rs := rfl
@[simp] theorem purgeLast_sc (tag : Byte) (s : State) : (purgeLast tag s).sc = restoreSetup s.sc := rfl
@[simp] theorem purgeLast_sau (tag : Byte) (s : State) : (purgeLast tag s).sau = s.sau := rfl
@[simp] theorem purgeLast_cs (tag : Byte) (s : State) : (purgeLast tag s).cs = s.cs := rfl
@[simp] theorem purgeLast_cli (tag : Byte) (s : State) : (purgeLast tag s).cli = s.cli := rfl
@[simp] theorem purgeLast_cardOut (tag : Byte) (s : State) : (purgeLast tag s).cardOut = s.cardOut := rfl
@[simp] theorem purgeLast_returnOut (tag : Byte) (s : State) : (purgeLast tag s).returnOut = s.returnOut := rfl
@[simp] theorem purgeLast_freeCount (tag : Byte) (s : State) : (purgeLast tag s).freeCount = s.freeCount := rfl

end Sys2Proof.Machine
end

