-- ==== Sys2Proof/Safety.lean ====
section
/-! DEFINITION. What the statements about the part are made of: what the end of a command may change beside the
command's own effect, and the properties of a state that every step keeps. -/

namespace Sys2Proof.Machine

/-! ### A safe step -/

/-- The next step neither faults nor is refused. -/
def Safe (s : State) : Prop := ∃ t, step s = .next t

/-! ### What follows a command's own effect -/

/-- The FLI, what the return channel has told and is sending aside. -/
def Fli.body (f : Fli) : Fli := { f with holdTold := false, sending := none }

/-- The MU, the sticky flag NOTICES_LOST aside. -/
def Mu.body (m : Mu) : Mu := { m with sticky := { m.sticky with noticesLost := false } }

/-- What the end of a command never changes: the tables, the monitor, the DRAM, the link, the FIFO, the replies. -/
structure SameCore (u t : State) : Prop where
  pending   : t.pending = u.pending
  mu        : t.mu.body = u.mu.body
  dm        : t.dm = u.dm
  dram      : t.sc.dram = u.sc.dram
  link      : t.fli.link = u.fli.link
  fifo      : t.fli.fifo = u.fli.fifo
  headMarks : t.fli.headMarks = u.fli.headMarks
  holdFifo  : t.fli.holdFifo = u.fli.holdFifo
  replies   : t.fli.replies = u.fli.replies

/-- R169, R173: what the return channel has done at a command's end. A free channel of a link that is UP sends a HOLD state that
differs from the one told, and nothing otherwise; it then has the reply at the head in sending, or else the notice. -/
structure Told (u t : State) : Prop where
  symbol  : u.fli.link = .up → u.fli.sending = none → holdState t ≠ u.fli.holdTold →
    t.returnOut = u.returnOut ++ [.symbol (holdState t)] ∧ t.fli.holdTold = holdState t
  silent  : u.fli.link = .down ∨ u.fli.sending ≠ none ∨ holdState t = u.fli.holdTold →
    t.returnOut = u.returnOut ∧ t.fli.holdTold = u.fli.holdTold
  sending : t.fli.sending =
    if u.fli.link = .up ∧ u.fli.sending = none then
      if t.fli.replies ≠ [] then some .reply else if t.fli.notices ≠ [] then some .notice else none
    else u.fli.sending

/-- The state is the effect `u` of a command that sets nothing else off, at the command's end: the return channel has
gone on, and only a header at the head may have started a wake of a RETAINING store (R109). -/
structure EndOfCommand (u t : State) : Prop where
  core  : SameCore u t
  rs    : t.rs = u.rs
  mode  : u.sc.mode = .retaining → t.sc.mode = if headerWaits u then .waking else .retaining
  rest  : u.sc.mode ≠ .retaining ∨ headerWaits u = false →
    t = { u with fli := t.fli, returnOut := t.returnOut } ∧ t.fli.body = u.fli.body
  told  : Told u t

/-- The state is the effect `u` of a command at the command's end, where `u` may set off what R118, R136, R97, R143, R96
and R138 state. When it sets nothing off, only the SC's bursts and refreshes and the return channel go on. -/
structure EndOfEvent (u t : State) : Prop where
  core  : SameCore u t
  quiet : settleStep u = none → u.sc.mode ≠ .retaining ∨ headerWaits u = false →
    t = { u with sc := storeAfter u.sc, fli := t.fli, returnOut := t.returnOut } ∧ t.fli.body = u.fli.body
  told  : Told u t

/-- The state is the effect `u` of a command at the command's end, and what `u` sets off has been taken one effect at a time
(WhatFollows says which effect and what it does; the order is the model's reading, log entry 19). -/
structure SetsOff (u t : State) : Prop where
  event   : EndOfEvent u t
  follows : t = finish (settle u)

/-- R118, R136, R97: no backlog item can be placed now, and neither a reservation nor a slot be granted. -/
structure CardsNext (s : State) : Prop where
  backlog     : s.sau.backlog = [] ∨ entryFree s = false
  reservation : ∀ f, s.rs.intake = .waitReservation f → entryFree s = false
  slot        : ∀ f, s.rs.intake = .waitSlot f → s.mu.purgeTag ≠ none ∨ chooseSlot s.sc (cardSlot s) = none

/-- R95, R96: no pressure release is asked for now. -/
def NoRelease (s : State) : Prop :=
  ∀ f, s.rs.intake = .waitSlot f → s.mu.purgeTag ≠ none ∨ s.sc.askAgain = false ∨ cardPathHolds s.sc = true

/-- R119, R120: the records other than `n` that are HELD and not the destination are younger than record `n`, which is HELD
and not the destination either. -/
structure OldestHeld (sau : Sau) (dest : Option Destination) (n : Nat) : Prop where
  inside  : n < sau.sets.length
  held    : (setAt sau n).state = .held
  apart   : dest ≠ some (.set n)
  younger : ∀ i, i < sau.sets.length → i ≠ n → (setAt sau i).state = .held → dest ≠ some (.set i) →
    (setAt sau n).opening.getD 0 < (setAt sau i).opening.getD 0

/-- R130: a SET job formed from a set record, at its first card. -/
structure SetJobOf (mu : Mu) (r : SetRecord) (short : Bool) (j : Job) : Prop where
  kind     : j.kind = .set
  cls      : j.cls = (r.title.map Title.cls).getD 0
  key      : j.key = r.title.map Title.key
  count    : j.sheetCount = r.title.map Title.sheetCount
  cards    : j.cards = setCards r
  captured : j.copies = (classAt mu j.cls).copies ∧ j.retries = (classAt mu j.cls).retries
  flags    : j.short = short ∧ j.spill = r.spill
  progress : j.nextPos = 0 ∧ j.nextCopy = 1

/-- R91, R92: every FILED slot of the card list, each named once there, is QUEUED with the job and its position as owner; no
other slot has changed. -/
structure SlotsQueued (s u : State) (id : Nat) (cards : List CardPos) : Prop where
  queued : ∀ (i : Nat) (c : CardPos) (chip : Chip), cards[i]? = some c → slotAt s.sc c.slot = .held .filed chip →
    c.slot < s.sc.slots.length → (∀ (k : Nat) (d : CardPos), cards[k]? = some d → d.slot = c.slot → k = i) →
    slotAt u.sc c.slot = .held .queued { chip with owner := .job id (i + 1) }
  others : ∀ n, (∀ c, c ∈ cards → c.slot ≠ n) → slotAt u.sc n = slotAt s.sc n

/-- The state at the start of a command's effect: the record at the head has been taken. -/
def taken (s : State) : State := popHead (fresh s)

/-- The record at the head has been taken and answered. -/
def answeredBy (tag code : Byte) (r : ReplyResult) (s : State) : State := placeReply tag code r (taken s)

/-! ### Fills, the close of a frame and BATCH END -/

/-- R67, R70: of the lines from the expected one up to `limit`, filled in rising order, line `i` is the first whose band is not
empty; its burst is `b` and the carry after it `c`. -/
structure NextFill (f : FrameCtx) (g : Geometry) (slot limit i : Nat) (b : WriteBurst) (c : Carry) : Prop where
  start : f.expected ≤ i
  below : i < limit
  empty : ∀ j, f.expected ≤ j → j < i → mapLine g slot f.depth f.margin f.carry j (List.replicate f.wf 0) = none
  burst : mapLine g slot f.depth f.margin f.carry i (List.replicate f.wf 0) = some (b, c)

/-- R67, R70: no line from the expected one up to `limit` has a band to fill. -/
def NoFill (f : FrameCtx) (g : Geometry) (slot limit : Nat) : Prop :=
  ∀ j, f.expected ≤ j → j < limit → mapLine g slot f.depth f.margin f.carry j (List.replicate f.wf 0) = none

/-- The intake RECEIVING this frame with this work left, and this slot part, as the SC goes on with them. -/
def receivingWith (f : FrameCtx) (w : Work) (sc : Sc) (u : State) : State :=
  { u with rs := { u.rs with intake := .receiving f, work := w }, sc := storeSettle sc }

/-- R65, R67, R68: what comes of LINE `n`, with the frame `f` open in `u` and no write burst left: the fill of a missing line
before it, one burst at a time, and then its own burst; a line whose band is empty writes none. -/
structure LineHandled (u : State) (f : FrameCtx) (g : Geometry) (slot n : Nat) (samples : List Byte) (t : State) :
    Prop where
  fill  : ∀ i b c, NextFill f g slot n i b c →
    EndOfCommand
      (receivingWith { f.gapped with expected := i + 1, carry := some c } (.line n samples)
        { enterGapped slot u.sc with write := some b } u) t
  place : NoFill f g slot n → ∀ f1 sc1,
    (f1, sc1) = (if f.expected < n ∨ samples = [] ∨ samples.length < f.wf then (f.gapped, enterGapped slot u.sc)
      else (f, u.sc)) →
    (∀ b c, mapLine g slot f.depth f.margin f.carry n (lineInks (u.rs.tone.getD []) f.wf samples) = some (b, c) →
      EndOfCommand
        (receivingWith { f1 with expected := n + 1, carry := some c } .none { sc1 with write := some b } u) t)
    ∧ (mapLine g slot f.depth f.margin f.carry n (lineInks (u.rs.tone.getD []) f.wf samples) = none →
      EndOfCommand (receivingWith { f1 with expected := n + 1 } .none sc1 u) t)

/-- R75 step 4, R76: the frame open in `u` has been filed; after an implicit end the record at the head that caused it has then
been taken (that it stands there is inferred: log entry 7). -/
structure Filed (implicit : Bool) (u t : State) : Prop where
  explicit : implicit = false → SetsOff (fileOpen u) t
  header   : ∀ h, implicit = true → headItem u.fli = some (.film (.header h)) →
    SetsOff (takeHeader h (popHead (settle (fileOpen u)))) t
  target   : ∀ x, implicit = true → headItem u.fli = some (.film (.target x)) →
    SetsOff (targetOp x (popHead (settle (fileOpen u)))) t
  lost     : implicit = true → headItem u.fli = some (.loss .frameHeader) →
    EndOfCommand (setIntake (.discarding .linkError 0 0) (popHead (settle (fileOpen u)))) t

/-- R75, R76: what comes of a close, with the frame `f` open in `u` and no write burst left: the trailing fill, one burst at a
time; then the lines-sent check (none in an implicit end) with the first closing burst, or the filing where every row or
column is written already. -/
structure CloseHandled (u : State) (f : FrameCtx) (g : Geometry) (slot : Nat) (sent : Option Nat) (t : State) :
    Prop where
  fill    : ∀ i b c, NextFill f g slot f.hf i b c →
    EndOfCommand
      (receivingWith { f.gapped with expected := i + 1, carry := some c } (.fill sent)
        { enterGapped slot u.sc with write := some b } u) t
  margins : NoFill f g slot f.hf → ∀ f1 sc1,
    (f1, sc1) = (if f.expected < f.hf ∨ sent.any (fun n => decide (f.records < n)) = true then (f.gapped, enterGapped slot u.sc)
      else (f, u.sc)) →
    (∀ b bs, closingBursts g = b :: bs →
      EndOfCommand
        (receivingWith { f1 with expected := max f.expected f.hf } (.margins sent.isNone bs)
          { sc1 with write := some (marginBurst g slot f.depth f.margin b.1 b.2) } u) t)
    ∧ (closingBursts g = [] →
      Filed sent.isNone
        { u with
          rs := { u.rs with
            intake := .receiving { f1 with expected := max f.expected f.hf }, work := .margins sent.isNone [] }
          sc := sc1 } t)

/-- R125: what becomes of a record that is ended as by END: the record afterwards, and the item that joins the backlog. -/
inductive EndedAs (mu : Mu) (n : Nat) (r : SetRecord) : SetRecord → List BacklogItem → Prop where
  | noKey (h : r.title = none) : EndedAs mu n r .blank []
  | complete (x : Title) (h : r.title = some x) (hc : setComplete r = true) (hn : setCards r ≠ []) :
      EndedAs mu n r { r with state := .closed, short := false } [.set n]
  | sent (x : Title) (h : r.title = some x) (hc : setComplete r = false) (hs : (classAt mu x.cls).short = .send)
      (hn : setCards r ≠ []) : EndedAs mu n r { r with state := .closed, short := true } [.set n]
  | allSpilled (x : Title) (h : r.title = some x) (hs : setComplete r = true ∨ (classAt mu x.cls).short = .send)
      (hn : setCards r = []) : EndedAs mu n r .blank []
  | held (x : Title) (h : r.title = some x) (hc : setComplete r = false) (hs : (classAt mu x.cls).short = .hold) :
      EndedAs mu n r { r with state := .held, short := true } []

/-- R77, R125: a target has left the FIFO with the intake IDLE, and nothing but the SAU and the notices has changed; that the SC
may ask again is the event of R96 (log entry 30). -/
structure SauOnly (s u : State) : Prop where
  rest : u = { fresh s with
    rs := { s.rs with intake := .idle }, sau := u.sau, sc := { s.sc with askAgain := u.sc.askAgain }, fli := u.fli
    mu := u.mu }
  fli  : u.fli = { takeHead s.fli with notices := u.fli.notices }
  mu   : u.mu.body = s.mu.body

/-- R125: SET_SHORT of the record `r`, number `n`, with title `x`, raised by the target, where the queue has a place for it. -/
def SetShortRaised (s u : State) (t : Target) (n : Nat) (x : Title) (r : SetRecord) : Prop :=
  s.fli.notices.length < 32 → u.fli.notices = s.fli.notices ++
    [{ kind := .setShort, roll := t.roll, ordinal := t.ordinal, key := some x.key, sheet := lowestMissing r
       setNo := some n, detail := sheetsMissing r }]

/-- R127 step 1: the set records after the current set, where there is one, has been ended as by END, and the item that joins
the backlog. -/
def OpenSetEnded (s : State) (sets : List SetRecord) (items : List BacklogItem) : Prop :=
  match currentSet s.sau with
  | none => sets = s.sau.sets ∧ items = []
  | some n => ∃ r, EndedAs s.mu n (setAt s.sau n) r items ∧ sets = s.sau.sets.set n r

/-! ### What tables, bursts and attempts come to -/

/-- R8: what a list of staged writes leaves at one position of the Index Table. -/
def indexAfter (p : Nat) (before : Option IndexEntry) (ws : List StagedWrite) : Option IndexEntry :=
  ws.foldl (fun e w =>
    match w with
    | .index q x => if q = p then x else e
    | .cls .. | .tone .. => e) before

/-- R8, R23: what a list of staged writes leaves at one position of the Class Table. -/
def classAfter (p : Nat) (before : ClassEntry) (ws : List StagedWrite) : ClassEntry :=
  ws.foldl (fun e w =>
    match w with
    | .cls q c => if q = p then storedClass e c else e
    | .index .. | .tone .. => e) before

/-- R8, R32: what a list of staged writes leaves at one entry of a tone table. -/
def toneAfter (t i : Nat) (before : Byte) (ws : List StagedWrite) : Byte :=
  ws.foldl (fun e w =>
    match w with
    | .tone u j ink => if u = t ∧ j = i then ink else e
    | .index .. | .cls .. => e) before

/-- R71: the byte that a write burst brings to an address, if it writes there. -/
def burstByte (b : WriteBurst) (a : Nat) : Option Byte :=
  if a / Config.slotBytes = b.slot then
    let row := a % Config.slotBytes / Config.chipColumns
    let column := a % Config.chipColumns
    match b.axis with
    | .rows => if b.first ≤ row then (b.lines[row - b.first]?).bind (fun l => l[column]?) else none
    | .columns => if b.first ≤ column then (b.lines[column - b.first]?).bind (fun l => l[row]?) else none
  else none

/-- R159: the commands that make an AWAITING attempt fail, with the cause: CARD SPOILED echoing the card's tray sequence,
and the expiry of the running response timer. -/
inductive Fails (s : State) (c : Card) : Instr → Cause → Prop where
  | spoiled (echo : Word16) (reason : SpoilReason) (h : echo.toNat = c.tray) :
      Fails s c (.cardSpoiled echo reason) (causeOfSpoil reason)
  | timeout (h : s.cli.timer.isSome = true) : Fails s c .responseTimerExpiry .timeout

/-- The source, key and sheet of a notice that concerns no card and no frame. -/
def plainNotice (kind : NoticeKind) (detail : Nat) : Notice where
  kind := kind
  roll := 0
  ordinal := 0
  key := none
  sheet := none
  setNo := none
  detail := detail

/-! ### Properties that every step keeps -/

/-- One when a flag is set. -/
def oneIf (b : Bool) : Nat := if b then 1 else 0

/-- R167, R172, R5: the FIFO, the notice queue and the staging list hold no more than their places. -/
structure LinkBounded (s : State) : Prop where
  fifo    : s.fli.fifo.length ≤ Config.fifoPlaces
  notices : s.fli.notices.length ≤ Config.noticePlaces
  staging : s.mu.staging.length ≤ Config.stagingPlaces

/-- R170, R171: the reply buffer, with room for the reply of a LINK RESET or a STORE PURGE that is not complete. -/
def RepliesBounded (s : State) : Prop :=
  s.fli.replies.length + oneIf s.mu.resetTag.isSome + oneIf s.mu.purgeTag.isSome ≤ Config.replyPlaces

/-- R135: the Card Queue holds at most 32 entries. -/
def QueueBounded (s : State) : Prop := s.cs.queue.length ≤ Config.queueEntries

/-- R103: the refresh deferral count. -/
def DeferralBounded (s : State) : Prop := s.sc.deferral ≤ Config.deferralLimit

/-- The DRAM stands in its canonical form: addresses rising, inside the store, and no byte that reads as an unlisted
one (log entry 5). -/
def MemoryCanonical (s : State) : Prop := dramWf s.sc.dram = true

/-- R90: 512 slots; a FREE slot lies in an enabled bank, and an OFFLINE slot in one that is not enabled. -/
structure SlotsFollowBanks (s : State) : Prop where
  length  : s.sc.slots.length = Config.slotCount
  free    : ∀ n, n < Config.slotCount → slotAt s.sc n = .free → bankOf n < s.sc.banks
  offline : ∀ n, n < Config.slotCount → slotAt s.sc n = .offline → s.sc.banks ≤ bankOf n

/-- R23: the levels and depths that a class can hold. -/
def ClassEntry.storedOk (c : ClassEntry) : Prop :=
  (1 ≤ c.level ∧ c.level ≤ 3) ∧ (c.depth = 1 ∨ c.depth = 2 ∨ c.depth = 4 ∨ c.depth = 8)

/-- R22: a staged class has a level of at most 3. -/
def StagedWrite.levelOk : StagedWrite → Prop
  | .cls _ c => c.level ≤ 3
  | .index .. | .tone .. => True

/-- R23: stored levels are 1..3 and stored depths 1, 2, 4 or 8, at all times. -/
structure ClassesStored (s : State) : Prop where
  classes : ∀ c, c ∈ s.mu.classes → c.storedOk
  staging : ∀ w, w ∈ s.mu.staging → w.levelOk

/-- R1: the valid positions stand in rising order, below 4,096. -/
def IndexRising (s : State) : Prop :=
  (s.mu.index.map Prod.fst).Pairwise (· < ·) ∧ (∀ p, p ∈ s.mu.index.map Prod.fst → p < Config.indexPositions)
    ∧ ∀ p e, StagedWrite.index p e ∈ s.mu.staging → p < Config.indexPositions

/-- R21, R32, R100, R113: 16 classes, eight tone tables of 256 entries, a turn for each bank, eight set records of 64 sheet
positions. -/
structure ListsShaped (s : State) : Prop where
  classes : s.mu.classes.length = Config.classCount
  tones   : s.mu.tones.length = 8 ∧ ∀ t, t ∈ s.mu.tones → t.length = 256
  turns   : s.sc.turns.length = Config.bankCount
  sets    : s.sau.sets.length = Config.setCount ∧ ∀ r, r ∈ s.sau.sets → r.sheets.length = Config.sheetPositions

/-- R87, R178: floor < enter < leave, each in 0..255. -/
def ThresholdsOrdered (s : State) : Prop := s.dm.floor < s.dm.enter ∧ s.dm.enter < s.dm.leave ∧ s.dm.leave ≤ 255

/-- R89: a THIN monitor always has a last evaluation. -/
def ThinHasLast (s : State) : Prop := s.dm.state = .thin → s.dm.last ≠ none

/-- Tables 9-1 and 6-1: the numbers of the CLI and the store setup stay in their ranges. -/
structure NumbersInRange (s : State) : Prop where
  batch    : 1 ≤ s.cli.batch ∧ s.cli.batch ≤ 65535
  tray     : 1 ≤ s.cli.nextTray ∧ s.cli.nextTray ≤ 65535
  pr       : 50 ≤ s.cli.pr ∧ s.cli.pr ≤ 200
  timeout  : 250 ≤ s.cli.timeout ∧ s.cli.timeout ≤ 8000
  interval : 2 ≤ s.sc.interval ∧ s.sc.interval ≤ 64
  banks    : 1 ≤ s.sc.banks ∧ s.sc.banks ≤ 4
  cfg      : (2 ≤ s.sc.cfgInterval ∧ s.sc.cfgInterval ≤ 64) ∧ 1 ≤ s.sc.cfgBanks ∧ s.sc.cfgBanks ≤ 4

/-- The card in flight is AWAITING. -/
def cardAwaits (cli : Cli) : Bool :=
  match cli.card with
  | some c => c.state == .awaiting
  | none => false

/-- R157: the response timer runs exactly while the card in flight is AWAITING. -/
def TimerAwaits (s : State) : Prop := s.cli.timer.isSome = cardAwaits s.cli

/-- R115: at most one set record is OPEN. -/
def OneOpen (s : State) : Prop := s.sau.sets.countP SetRecord.isOpen ≤ 1

/-- The closing bursts still to be issued lie in the raster (R75). -/
def Work.inRaster : Work → Prop
  | .margins _ bursts => ∀ b, b ∈ bursts → b.1 + b.2 ≤ slotSide
  | .none | .line .. | .fill _ => True

/-- The slot of a frame RECEIVING is one of the 512, and a frame WAITING holds none (R61, R62, R95). -/
def Intake.slotOk : Intake → Prop
  | .receiving f => f.slot.getD 0 < Config.slotCount
  | .waitSlot f | .waitReservation f => f.slot = none
  | .idle | .discarding .. | .waitTarget _ => True

/-- R50, R71: the write burst, and those still to be issued, stay inside their slot and the store. -/
structure WritesFit (s : State) : Prop where
  burst : ∀ w, s.sc.write = some w → writeFits w = true
  work  : s.rs.work.inRaster
  slot  : s.rs.intake.slotOk

end Sys2Proof.Machine
end

