-- ==== Sys2Proof/Certificates/Slice0/Obligations.lean ====
section
/-! DEFINITION. The statements about the ZS6240 that the provers prove. Each docstring names the rules it rests on. -/

open Sys2Proof Sys2Proof.Machine

/-! ### The step and the reset -/

/-- A step carries out the command at the front of the queue, on the state with the queue's rest. -/
def Obligations.StepRunsFrontCommand : Prop :=
  ∀ (c : Instr) (s : State), step { s with pending := c :: s.pending } = exec c s

/-- R177 and the power-on columns of Tables 5-1, 6-5, 7-1, 8-1, 9-1, 10-1 and 1-12: POWER_ON completes in every state and
leaves the values that the spec gives for power-on, whatever stood before: of the eight tone tables, table 1 the inverse and
the seven others the identity. That the queue of commands is kept is the model's choice (log entry 28). -/
def Obligations.PowerOnState : Prop :=
  ∀ s : State, ∃ t, exec .powerOn s = .next t ∧ t.pending = s.pending
    ∧ t.mu.startup = .loading ∧ holdState t = true ∧ t.mu.lastReset = .power ∧ t.mu.sticky = {}
    ∧ t.mu.index = [] ∧ t.mu.generation = 0 ∧ t.mu.staging = []
    ∧ (∀ n, n < 16 → classAt t.mu n = .powerOn)
    ∧ (∀ n i, n < 8 → i < 256 → toneAt t.mu (256 * n + i) = if n = 1 then byteOf (255 - i) else byteOf i)
    ∧ t.fli.link = .down ∧ t.fli.fifo = [] ∧ t.fli.replies = [] ∧ t.fli.notices = [] ∧ t.fli.holdFifo = false
    ∧ t.dm.state = .normal ∧ t.dm.enable = true ∧ t.dm.last = none
    ∧ t.rs.intake = .idle ∧ t.rs.tone = none ∧ t.rs.geometry = none
    ∧ t.sc.mode = .active ∧ t.sc.deferral = 0 ∧ t.sc.refresh = none ∧ t.sc.forced = none ∧ t.sc.write = none
    ∧ t.sc.read = none ∧ t.sc.turns = [.read, .read, .read, .read]
    ∧ t.sau.sets = List.replicate 8 .blank ∧ currentSet t.sau = none ∧ t.sau.passMode = false
    ∧ groupState t.sau = .empty ∧ t.sau.backlog = []
    ∧ t.cs.queue = [] ∧ t.cs.current = none ∧ t.cs.breakIn = none ∧ t.cs.retry = none
    ∧ t.cli.ready = false ∧ t.cli.card = none ∧ t.cli.timer = none ∧ t.cli.failed = none ∧ t.cli.batch = 1
    ∧ t.cli.nextTray = 1

/-- The properties that every step keeps hold in the state right after reset. That ThresholdsOrdered, SlotsFollowBanks and the
dot pitch, timeout, interval and banks of NumbersInRange hold there rests on the values that the model holds before loading
ends (log entry 3), and MemoryCanonical on its record of the DRAM (log entry 5): these are the model's choice. -/
def Obligations.InvariantsAtReset : Prop :=
  LinkBounded State.reset ∧ RepliesBounded State.reset ∧ QueueBounded State.reset ∧ DeferralBounded State.reset
    ∧ MemoryCanonical State.reset ∧ SlotsFollowBanks State.reset ∧ ClassesStored State.reset ∧ IndexRising State.reset
    ∧ ListsShaped State.reset ∧ ThresholdsOrdered State.reset ∧ ThinHasLast State.reset ∧ NumbersInRange State.reset
    ∧ TimerAwaits State.reset ∧ OneOpen State.reset ∧ WritesFit State.reset

/-! ### Properties that every step keeps -/

/-- R5, R103, R135, R167, R170, R171, R172: the FIFO, the notice queue, the staging list, the reply buffer (the reply owed to a
LINK RESET or a STORE PURGE included), the Card Queue and the refresh deferral count never exceed their limits. -/
def Obligations.StepKeepsCountsBounded : Prop :=
  ∀ s t : State, step s = .next t →
    (LinkBounded s → LinkBounded t) ∧ (RepliesBounded s → RepliesBounded t) ∧ (QueueBounded s → QueueBounded t)
      ∧ (DeferralBounded s → DeferralBounded t)

/-- Table 6-1: the DRAM's record keeps its one canonical form; no byte is kept outside the 8 GiB (log entry 5). -/
def Obligations.StepKeepsMemoryCanonical : Prop :=
  ∀ s t : State, MemoryCanonical s → step s = .next t → MemoryCanonical t

/-- R90: 512 slots; a FREE slot lies in an enabled bank and an OFFLINE slot in a bank that is not enabled. The premise
that the banks and the configured banks are at most 4 is part of NumbersInRange. -/
def Obligations.StepKeepsSlotsFollowBanks : Prop :=
  ∀ s t : State, SlotsFollowBanks s → NumbersInRange s → step s = .next t → SlotsFollowBanks t

/-- R1, R23, and the sizes of R21, R32, R100 and R113: the stored level of every class is 1..3 and its stored depth 1, 2, 4
or 8 at all times; the valid positions of the Index Table stay in rising order below 4,096; every table keeps its size. -/
def Obligations.StepKeepsTables : Prop :=
  ∀ s t : State, step s = .next t →
    (ClassesStored s → ClassesStored t) ∧ (IndexRising s → IndexRising t) ∧ (ListsShaped s → ListsShaped t)

/-- R87, R89, R178: floor < enter < leave at all times, and a THIN monitor always has a last evaluation. -/
def Obligations.StepKeepsMonitor : Prop :=
  ∀ s t : State, ThresholdsOrdered s → ThinHasLast s → step s = .next t → ThresholdsOrdered t ∧ ThinHasLast t

/-- Tables 6-1 and 9-1, R111, R163, R164: batch number, tray sequence, dot pitch, timeout, interval and banks stay in their
ranges. -/
def Obligations.StepKeepsNumbersInRange : Prop :=
  ∀ s t : State, NumbersInRange s → step s = .next t → NumbersInRange t

/-- R157: the response timer runs exactly while the card in flight is AWAITING. -/
def Obligations.StepKeepsTimerAwaits : Prop :=
  ∀ s t : State, TimerAwaits s → step s = .next t → TimerAwaits t

/-- R115: at most one set record is OPEN. -/
def Obligations.StepKeepsOneOpen : Prop :=
  ∀ s t : State, OneOpen s → step s = .next t → OneOpen t

/-- R50, R71: every write burst stays inside its slot and the store, so WRITE_BURST_SERVED does not fault. -/
def Obligations.StepKeepsWritesFit : Prop :=
  (∀ s t : State, WritesFit s → step s = .next t → WritesFit t)
    ∧ ∀ s : State, WritesFit s → ∃ t, exec .writeBurstServed s = .next t

/-! ### Start-up, link state and the return channel -/

/-- R177, R178: what LOADING_END hands to each owner. Fewer than 16 words, or a wrong marker, give every default and set
CONFIG_DEFAULTED; otherwise each item is judged on its own words and the thresholds as one triple. -/
def Obligations.LoadingEndHandsOver : Prop :=
  ∀ (words : List Word16) (s : State), s.mu.startup = .loading → ∃ u t, exec (.loadingEnd words) s = .next t
    ∧ EndOfCommand u t ∧ u.mu.startup = .running ∧ u.mu.lastReset = .power ∧ u.sc.cfgInterval = u.sc.interval
    ∧ u.sc.cfgBanks = u.sc.banks ∧ u.sc.slots = emptySlots u.sc.banks ∧ u.sc.timer = some u.sc.interval
    ∧ (words.length < 16 ∨ words.getD 0 0 ≠ 0x3D62 →
        u.mu.sticky.configDefaulted = true ∧ u.mu.serial1 = 0 ∧ u.mu.serial2 = 0 ∧ u.mu.station = 0
          ∧ u.sc.interval = 8 ∧ u.sc.banks = 4 ∧ u.cli.timeout = 2000 ∧ u.cli.pr = 100 ∧ u.dm.floor = 16
          ∧ u.dm.enter = 48 ∧ u.dm.leave = 64)
    ∧ (16 ≤ words.length → words.getD 0 0 = 0x3D62 →
        u.mu.sticky.configDefaulted = s.mu.sticky.configDefaulted
          ∧ (∀ w, w = words.getD 1 0 → u.mu.serial1 = if w = 0xFFFF then 0 else w)
          ∧ (∀ w, w = words.getD 2 0 → u.mu.serial2 = if w = 0xFFFF then 0 else w)
          ∧ (∀ w, w = words.getD 10 0 → u.mu.station = if w = 0xFFFF then 0 else w)
          ∧ (∀ n, n = (words.getD 3 0).toNat → u.sc.interval = if 2 ≤ n ∧ n ≤ 64 then n else 8)
          ∧ (∀ n, n = (words.getD 4 0).toNat → u.sc.banks = if 1 ≤ n ∧ n ≤ 4 then n else 4)
          ∧ (∀ n, n = (words.getD 5 0).toNat → u.cli.timeout = if 25 ≤ n ∧ n ≤ 800 then 10 * n else 2000)
          ∧ (∀ n, n = (words.getD 6 0).toNat → u.cli.pr = if 50 ≤ n ∧ n ≤ 200 then n else 100)
          ∧ (∀ f e l, f = (words.getD 7 0).toNat → e = (words.getD 8 0).toNat → l = (words.getD 9 0).toNat →
              (u.dm.floor, u.dm.enter, u.dm.leave)
                = if 0 < f ∧ f < e ∧ e < l ∧ l ≤ 255 then (f, e, l) else (16, 48, 64)))

/-- R166, R169, R171 to R173: at the change to UP the present HOLD state is sent first; an item whose sending ends leaves the
head of its queue and has gone out as its record; the channel, free again, goes on with a reply ahead of every notice. A change
of HOLD is sent as a symbol at once on a free channel, as at the 48th place and at the fall to 16, and at the next boundary
between records on one that is sending. -/
def Obligations.ReturnChannelGoesOn : Prop :=
  (∀ s : State, s.fli.link = .down → ∃ t, exec .linkUp s = .next t
    ∧ EndOfCommand
        { fresh s with
          fli := { s.fli with link := .up, holdTold := holdState s }, returnOut := [.symbol (holdState s)] } t
    ∧ t.returnOut.head? = some (.symbol (holdState s)))
  ∧ (∀ s : State, s.fli.link = .up →
    (∀ r rs, s.fli.sending = some .reply → s.fli.replies = r :: rs → ∃ t, exec .returnSendEnd s = .next t
      ∧ EndOfCommand
          { fresh s with
            fli := { s.fli with replies := rs, sending := none }, returnOut := [.record (replyRecord r)] } t
      ∧ t.returnOut.head? = some (.record (replyRecord r)))
    ∧ (∀ n ns, s.fli.sending = some .notice → s.fli.notices = n :: ns → ∃ t, exec .returnSendEnd s = .next t
      ∧ EndOfCommand
          { fresh s with
            fli := { s.fli with notices := ns, sending := none }, returnOut := [.record (noticeRecord n)] } t
      ∧ t.returnOut.head? = some (.record (noticeRecord n)))
    ∧ (∀ x, s.fli.sending = some x → ∃ t, exec .returnSendEnd s = .next t
      ∧ (t.fli.replies ≠ [] → t.fli.sending = some .reply)
      ∧ (t.fli.replies = [] → t.fli.notices ≠ [] → t.fli.sending = some .notice)
      ∧ (t.fli.replies = [] → t.fli.notices = [] → t.fli.sending = none)
      ∧ t.fli.holdTold = holdState t
      ∧ (holdState t ≠ s.fli.holdTold → t.returnOut.getLast? = some (.symbol (holdState t)))))
  ∧ (∀ (s : State) (r : LinkRecord) (c : Content), s.fli.link = .up → arrival r = .accepted c →
    s.fli.fifo.length = 47 → s.fli.holdTold = false → ∃ t, exec (.recordReceived r) s = .next t ∧ holdState t = true
      ∧ (s.fli.sending = none → t.returnOut = [.symbol true] ∧ t.fli.holdTold = true)
      ∧ (∀ x, s.fli.sending = some x → t.returnOut = [] ∧ t.fli.holdTold = false ∧ t.fli.sending = some x))
  ∧ ∀ (s : State) (n : Nat) (samples : List Byte), s.fli.link = .up → headLine s = some (n, samples) →
    s.rs.intake = .idle → s.fli.headMarks = [] → s.fli.fifo.length = 17 → s.sc.mode = .active →
    s.fli.holdTold = true → ∃ t, exec .line s = .next t ∧ holdState t = false
      ∧ (s.fli.sending = none → t.returnOut = [.symbol false] ∧ t.fli.holdTold = false)
      ∧ (∀ x, s.fli.sending = some x → t.returnOut = [] ∧ t.fli.holdTold = true ∧ t.fli.sending = some x)

/-- R166, R78: link loss sets LINK_LOST_SEEN, raises LINK_LOST, cuts the sending, and ends what the intake had open: a
DISCARDING frame with no notice of its own, a waiting BATCH END stands, and an open or waiting frame with FRAME_LOST after
LINK_LOST, its reservation and its slot given back (R98): a burst that is only waiting is dropped with it, and the slot of an
active one is given back when that has ended. That the slot stands until then is inferred from R78, R79 and R98 (log entry
14). -/
def Obligations.LinkLossAborts : Prop :=
  ∀ s : State, s.fli.link = .up → ∃ u t, exec .linkLoss s = .next t ∧ SetsOff u t
    ∧ u.fli.link = .down ∧ u.fli.sending = none ∧ u.mu.sticky.linkLostSeen = true ∧ u.sau = s.sau ∧ u.cli = s.cli
    ∧ ((∀ f, s.rs.intake ≠ .receiving f ∧ s.rs.intake ≠ .waitSlot f ∧ s.rs.intake ≠ .waitReservation f) →
        u.sc = s.sc ∧ u.cs = s.cs
          ∧ (s.fli.notices.length < 32 → u.fli.notices = s.fli.notices ++ [plainNotice .linkLost 0])
          ∧ (32 ≤ s.fli.notices.length → u.fli.notices = s.fli.notices ∧ u.mu.sticky.noticesLost = true))
    ∧ (s.rs.intake = .idle → u.rs = s.rs)
    ∧ (∀ why roll ordinal, s.rs.intake = .discarding why roll ordinal → u.rs = { s.rs with intake := .idle })
    ∧ (∀ tgt, s.rs.intake = .waitTarget tgt → u.rs = s.rs)
    ∧ (∀ f, s.rs.intake = .receiving f ∨ s.rs.intake = .waitSlot f ∨ s.rs.intake = .waitReservation f →
        u.rs = { intake := .idle, work := .none, tone := none, geometry := none }
          ∧ u.cs.queue = (if s.cs.queue.any Entry.isReservation then dropReservation s.cs.queue else s.cs.queue)
          ∧ (s.fli.notices.length < 31 → u.fli.notices
              = s.fli.notices ++ [plainNotice .linkLost 0, frameNotice .frameLost f 2])
          ∧ (∀ n, f.slot = some n → s.sc.write = none → n < s.sc.slots.length → bankOf n < s.sc.banks →
              slotAt u.sc n = .free)
          ∧ (∀ n w, f.slot = some n → s.sc.write = some w → w.active = false → n < s.sc.slots.length →
              bankOf n < s.sc.banks → slotAt u.sc n = .free ∧ u.sc.write = none)
          ∧ (∀ n w, f.slot = some n → s.sc.write = some w → w.active = true →
              u.sc.slots = s.sc.slots ∧ u.sc.write = some { w with aborted := true }))

/-- R167, R168, R169: a record that has passed its tests joins the tail of the FIFO, and an occupancy of 48 asserts the FIFO
input to HOLD; with 64 places held it is dropped with OVERRUN, a film record leaving its mark on the tail place. A check
error raises LINK_ERROR, and a film kind leaves a loss indication, or a mark when the FIFO is full. -/
def Obligations.RecordReceivedJoins : Prop :=
  ∀ (r : LinkRecord) (s : State), s.fli.link = .up → ∃ u t, exec (.recordReceived r) s = .next t ∧ EndOfCommand u t
    ∧ (∀ c, arrival r = .accepted c → s.fli.fifo.length < 64 → u =
        { fresh s with
          fli := { s.fli with
            fifo := s.fli.fifo ++ [{ content := c, marks := [] }]
            holdFifo := if s.fli.fifo.length = 47 then true else s.fli.holdFifo } })
    ∧ (∀ c, arrival r = .accepted c → 64 ≤ s.fli.fifo.length → u =
        { fresh s with
          mu := { s.mu with sticky := { s.mu.sticky with overrun := true } }
          fli := { s.fli with
            fifo := match c.filmKind? with
              | some k => markTail k s.fli.fifo
              | none => s.fli.fifo } })
    ∧ (∀ k d, arrival r = .checkError (some k) d →
        u.mu.sticky.overrun = s.mu.sticky.overrun
          ∧ (s.fli.notices.length < 32 → u.fli.notices = s.fli.notices ++ [plainNotice .linkError d])
          ∧ (s.fli.fifo.length < 64 → u.fli.fifo = s.fli.fifo ++ [{ content := .loss k, marks := [] }])
          ∧ (64 ≤ s.fli.fifo.length → u.fli.fifo = markTail k s.fli.fifo))
    ∧ (∀ d, arrival r = .checkError none d →
        u.fli.fifo = s.fli.fifo ∧ u.mu.sticky.overrun = s.mu.sticky.overrun
          ∧ (s.fli.notices.length < 32 → u.fli.notices = s.fli.notices ++ [plainNotice .linkError d]))
    ∧ (arrival r = .unknown → s.fli.fifo.length < 64 → u = fresh s)

/-! ### Tables -/

/-- R3: TABLE WRITE, its checks in order: the kind (1 INDEX, 2 CLASS, 3 TONE), the position, the content, the room in the
staging list. -/
def Obligations.TableWriteChecksInOrder : Prop :=
  ∀ (s : State) (tag kind : Byte) (position : Nat) (content : List Byte),
    mgmtHead s = some (tag, .tableWrite kind position content) →
    (kind ≠ 1 → kind ≠ 2 → kind ≠ 3 → ∃ t, exec .tableWrite s = .next t
      ∧ EndOfCommand (answeredBy tag 0x40 (.refused .badField) s) t)
    ∧ ((kind = 1 ∧ 4096 ≤ position) ∨ (kind = 2 ∧ 16 ≤ position) ∨ (kind = 3 ∧ 2048 ≤ position) →
      ∃ t, exec .tableWrite s = .next t ∧ EndOfCommand (answeredBy tag 0x40 (.refused .badPosition) s) t)
    ∧ ((kind = 1 ∧ position < 4096 ∧ parseIndexContent content = none)
        ∨ (kind = 2 ∧ position < 16 ∧ parseClassContent content = none) →
      ∃ t, exec .tableWrite s = .next t ∧ EndOfCommand (answeredBy tag 0x40 (.refused .badField) s) t)
    ∧ ∀ w : StagedWrite,
      (kind = 1 ∧ position < 4096 ∧ ∃ e, parseIndexContent content = some e ∧ w = .index position e)
        ∨ (kind = 2 ∧ position < 16 ∧ ∃ c, parseClassContent content = some c ∧ w = .cls position c)
        ∨ (kind = 3 ∧ position < 2048 ∧ w = .tone (position / 256) (position % 256) (content.getD 0 0)) →
      (64 ≤ s.mu.staging.length → ∃ t, exec .tableWrite s = .next t
        ∧ EndOfCommand (answeredBy tag 0x40 (.refused .full) s) t)
      ∧ (s.mu.staging.length < 64 → ∃ t, exec .tableWrite s = .next t
        ∧ EndOfCommand
            { answeredBy tag 0x40 (.ok (.staged (s.mu.staging.length + 1))) s with
              mu := { s.mu with staging := s.mu.staging ++ [w] } } t)

/-- R7, R8, R23: TABLE FENCE publishes the staged writes, later ones over earlier ones, counts up the generation and empties
the list, in every state in which it is taken. -/
def Obligations.TableFencePublishes : Prop :=
  ∀ (s : State) (tag : Byte), mgmtHead s = some (tag, .tableFence) → ∃ m t, exec .tableFence s = .next t
    ∧ EndOfCommand { answeredBy tag 0x41 (.ok (.generation (s.mu.generation + 1))) s with mu := m } t
    ∧ m = { s.mu with
            index := m.index, classes := m.classes, tones := m.tones, staging := [], generation := s.mu.generation + 1 }
    ∧ (IndexRising s → ∀ p, indexAt m p = indexAfter p (indexAt s.mu p) s.mu.staging)
    ∧ (∀ p, p < s.mu.classes.length → classAt m p = classAfter p (classAt s.mu p) s.mu.staging)
    ∧ (∀ n i, n < s.mu.tones.length → i < (s.mu.tones.getD n []).length →
        (m.tones.getD n []).getD i 0 = toneAfter n i ((s.mu.tones.getD n []).getD i 0) s.mu.staging)

/-- R18: TABLE READ returns the active content with the generation, or refuses by the first check that fails. An invalid entry
is sent with valid no and every other field zero, an absent revision as two spaces. -/
def Obligations.TableReadReturnsActive : Prop :=
  (∀ (s : State) (tag kind : Byte) (position : Nat), mgmtHead s = some (tag, .tableRead kind position) →
    ∃ r t, exec .tableRead s = .next t ∧ EndOfCommand (answeredBy tag 0x42 r s) t
      ∧ (kind ≠ 1 → kind ≠ 2 → kind ≠ 3 → r = .refused .badField)
      ∧ ((kind = 1 ∧ 4096 ≤ position) ∨ (kind = 2 ∧ 16 ≤ position) ∨ (kind = 3 ∧ 2048 ≤ position) →
          r = .refused .badPosition)
      ∧ (kind = 1 → position < 4096 → r = .ok (.indexEntry s.mu.generation (indexAt s.mu position)))
      ∧ (kind = 2 → position < 16 → r = .ok (.classEntry s.mu.generation (classAt s.mu position)))
      ∧ (kind = 3 → position < 2048 →
          r = .ok (.toneEntry s.mu.generation ((s.mu.tones.getD (position / 256) []).getD (position % 256) 0))))
  ∧ (∀ g, replyDataBytes (.indexEntry g none) = be32 g.toNat ++ List.replicate 32 0)
  ∧ ∀ e : IndexEntry, e.key.number.length = 16 → e.key.revision = none →
      (indexBytes (some e)).length = 32 ∧ (indexBytes (some e)).take 1 = [1] ∧ (indexBytes (some e)).drop 30 = [0x20, 0x20]

/-- R19: the two forms of TABLE DESCRIBE; the positions named are the highest valid and the lowest invalid one. -/
def Obligations.TableDescribeSummarises : Prop :=
  ∀ (s : State) (tag form : Byte), mgmtHead s = some (tag, .tableDescribe form) → IndexRising s →
    (form = 0 → ∃ t, exec .tableDescribe s = .next t
      ∧ EndOfCommand
          (answeredBy tag 0x43 (.ok (.describeShort s.mu.index.length (s.mu.generation.toNat % 65536))) s) t)
    ∧ (form = 1 → ∃ high low t, exec .tableDescribe s = .next t
      ∧ EndOfCommand
          (answeredBy tag 0x43 (.ok (.describeLong s.mu.index.length s.mu.generation s.mu.staging.length high low)) s) t
      ∧ (∀ p, high = some p → (indexAt s.mu p).isSome = true ∧ ∀ q, p < q → indexAt s.mu q = none)
      ∧ (high = none → ∀ q, indexAt s.mu q = none)
      ∧ (∀ p, low = some p → p < 4096 ∧ indexAt s.mu p = none ∧ ∀ q, q < p → (indexAt s.mu q).isSome = true)
      ∧ (low = none → ∀ q, q < 4096 → (indexAt s.mu q).isSome = true))
    ∧ (form ≠ 0 → form ≠ 1 → ∃ t, exec .tableDescribe s = .next t
      ∧ EndOfCommand (answeredBy tag 0x43 (.refused .badField) s) t)

/-- R4, R18, R22, R167, R179, R180, Tables 11-1 to 11-4: the layouts read back. The content that TABLE READ sends for an entry
passes the content checks of TABLE WRITE and stands for that entry, for every valid entry and every class; and a film
record with its check is accepted with the fields that were sent, for every value of every field, the reserved bits of the
extents not mattering. -/
def Obligations.LayoutsReadBack : Prop :=
  parseIndexContent (indexBytes none) = some none
  ∧ (∀ e : IndexEntry, (1 ≤ e.roll ∧ e.roll ≤ 65535) → (1 ≤ e.first ∧ e.first ≤ 65535) → (1 ≤ e.count ∧ e.count ≤ 256) →
      (1 ≤ e.firstSheet ∧ e.firstSheet ≤ 64) → (1 ≤ e.sheetCount ∧ e.sheetCount ≤ 64) → (1 ≤ e.cls ∧ e.cls ≤ 15) →
      (80 ≤ e.rf ∧ e.rf ≤ 500) → e.key.number.length = 16 → numberOk e.key.number = true →
      (∀ a b, e.key.revision = some (a, b) → isCharacter a = true ∧ isCharacter b = true ∧ a ≠ 0x20) →
      (e.sameSheet = false → e.firstSheet + e.count ≤ 65) →
      parseIndexContent (indexBytes (some e)) = some (some e))
  ∧ (∀ c : ClassEntry, (80 ≤ c.rc ∧ c.rc ≤ 500) → (80 ≤ c.assumedRf ∧ c.assumedRf ≤ 500) → c.tone ≤ 7 → c.level ≤ 3 →
      (1 ≤ c.copies ∧ c.copies ≤ 3) → c.retries ≤ 3 → c.depth ≤ 255 → parseClassContent (classBytes c) = some c)
  ∧ (∀ (roll ordinal ps db wf hf top bottom : Nat), roll ≤ 65535 → ordinal ≤ 65535 → ps ≤ 255 → db ≤ 255 → wf ≤ 16383 →
      hf ≤ 16383 → top ≤ 3 → bottom ≤ 3 →
      arrival (sealRecord 1 (be16 roll ++ be16 ordinal ++ [byteOf ps, byteOf db] ++ be16 (16384 * top + wf)
          ++ be16 (16384 * bottom + hf)))
        = .accepted (.film (.header { roll := roll, ordinal := ordinal, ps := ps, db := db, wf := wf, hf := hf })))
  ∧ (∀ (n : Nat) (samples : List Byte), n ≤ 65535 → samples.length ≤ 65531 →
      arrival (sealRecord 2 (be16 n ++ be16 samples.length ++ samples)) = .accepted (.film (.line n samples)))
  ∧ (∀ n : Nat, n ≤ 65535 → arrival (sealRecord 3 (be16 n)) = .accepted (.film (.frameEnd n)))
  ∧ ∀ (k : TargetKind) (code reserved : Byte) (roll ordinal : Nat), targetKind? code = some k → roll ≤ 65535 →
      ordinal ≤ 65535 →
      arrival (sealRecord 4 (be16 roll ++ be16 ordinal ++ [code, reserved]))
        = .accepted (.film (.target { kind := k, roll := roll, ordinal := ordinal }))

/-! ### Film records -/

/-- R11 to R15: ordinals 1 to 4 are leaders; otherwise the valid entry at the lowest position that covers the frame decides,
and with none the frame is UNINDEXED. -/
def Obligations.ClassificationByFirstMatch : Prop :=
  ∀ s : State, IndexRising s → ∀ h : Header,
    (classify s.mu h = .leader ↔ 1 ≤ h.ordinal ∧ h.ordinal ≤ 4)
    ∧ (∀ p m, classify s.mu h = .superseded p m ∨ classify s.mu h = .indexed p m → ∃ e,
        indexAt s.mu p = some e ∧ e.roll = h.roll ∧ e.first ≤ h.ordinal ∧ h.ordinal < e.first + e.count
          ∧ (e.superseded = true ↔ classify s.mu h = .superseded p m)
          ∧ m.key = e.key ∧ m.sheetCount = e.sheetCount ∧ m.cls = e.cls ∧ m.rf = e.rf
          ∧ (e.sameSheet = true → m.sheet = e.firstSheet)
          ∧ (e.sameSheet = false → m.sheet = e.firstSheet + (h.ordinal - e.first))
          ∧ ∀ q d, q < p → indexAt s.mu q = some d →
              ¬ (d.roll = h.roll ∧ d.first ≤ h.ordinal ∧ h.ordinal < d.first + d.count))
    ∧ (∀ rf, classify s.mu h = .unindexed rf → rf = (classAt s.mu 0).assumedRf
        ∧ ∀ q d, indexAt s.mu q = some d → ¬ (d.roll = h.roll ∧ d.first ≤ h.ordinal ∧ h.ordinal < d.first + d.count))

/-- R58, R109: with the store RETAINING or WAKING a FRAME HEADER is left at the head, the intake unchanged, and the store is
WAKING afterwards. At the end of the wake the store is ACTIVE and its input to HOLD withdrawn; with no header at the head
waiting bursts and refreshes go on and nothing else of the part changes, and a header at the head is taken at once, as FRAME
HEADER takes it in an ACTIVE store with no frame open: a leader's, into DISCARDING. -/
def Obligations.WakeHoldsHeader : Prop :=
  (∀ (s : State) (h : Header), headHeader s = some h → s.sc.mode ≠ .active → ∃ t, exec .frameHeader s = .next t
    ∧ t.sc.mode = .waking ∧ t.rs = s.rs ∧ t.dm = s.dm ∧ t.fli.fifo = s.fli.fifo ∧ t.fli.headMarks = s.fli.headMarks)
  ∧ (∀ (s : State) (h : Header), headHeader s = some h → s.sc.mode = .active → (∀ f, s.rs.intake ≠ .receiving f) →
    ∃ t, exec .frameHeader s = .next t ∧ SetsOff (takeHeader h (taken s)) t)
  ∧ ∀ s : State, s.sc.mode = .waking → ∃ t, exec .wakeEnd s = .next t ∧ t.sc.mode = .active
    ∧ holdState t = (t.fli.holdFifo || t.mu.startup == .loading)
    ∧ (headHeader s = none → EndOfCommand { fresh s with sc := storeSettle { s.sc with mode := .active } } t)
    ∧ (∀ h, headHeader s = some h → (∀ f, s.rs.intake ≠ .receiving f) →
        SetsOff (takeHeader h { taken s with sc := storeSettle { s.sc with mode := .active } }) t)
    ∧ (∀ h, headHeader s = some h → (∀ f, s.rs.intake ≠ .receiving f) → h.wf ≠ 0 → h.hf ≠ 0 →
        1 ≤ h.ordinal ∧ h.ordinal ≤ 4 →
        SetsOff
          (setIntake (.discarding .leader h.roll h.ordinal)
            { taken s with sc := storeSettle { s.sc with mode := .active } }) t)

/-- R58, R59, R12, R16, R83, R85 (Table 4-3): the outcomes that send a header to DISCARDING, each with its notice and with the
density monitor's evaluation where the table gives one. -/
def Obligations.HeaderToDiscarding : Prop :=
  ∀ (s : State) (h : Header), headHeader s = some h → s.sc.mode = .active →
    (∀ f, s.rs.intake ≠ .receiving f) →
    (h.wf = 0 ∨ h.hf = 0 → ∃ t, exec .frameHeader s = .next t
      ∧ SetsOff (setIntake (.discarding .badHeader h.roll h.ordinal)
          (raiseNotice (headerNotice .frameLost h none 1) (taken s))) t)
    ∧ (h.wf ≠ 0 → h.hf ≠ 0 → 1 ≤ h.ordinal ∧ h.ordinal ≤ 4 → ∃ t, exec .frameHeader s = .next t
      ∧ SetsOff (setIntake (.discarding .leader h.roll h.ordinal) (taken s)) t)
    ∧ (∀ p m, h.wf ≠ 0 → h.hf ≠ 0 → classify s.mu h = .superseded p m → ∃ t, exec .frameHeader s = .next t
      ∧ SetsOff (setIntake (.discarding .superseded h.roll h.ordinal)
          (raiseNotice (headerNotice .supersededSkipped h (some m) p) (evaluateHeader h (some m) (taken s)))) t)
    ∧ (∀ m, h.wf ≠ 0 → h.hf ≠ 0 → h.db < s.dm.floor →
        (∃ p x, classify s.mu h = .indexed p x ∧ m = some x) ∨ (∃ rf, classify s.mu h = .unindexed rf ∧ m = none) →
        ∃ t, exec .frameHeader s = .next t
          ∧ SetsOff (setIntake (.discarding .floor h.roll h.ordinal)
              (raiseNotice (headerNotice .floorReject h m h.db) (evaluateHeader h m (taken s)))) t)

/-- R83, R82: the density monitor after a header that is evaluated, whatever becomes of the frame: Table 5-2 and the last
evaluation, the thresholds and the enable standing. The notice of a change of state is stated in HeaderSetUp. -/
def Obligations.HeaderEvaluatesDensity : Prop :=
  ∀ (s : State) (h : Header), headHeader s = some h → s.sc.mode = .active → (∀ f, s.rs.intake ≠ .receiving f) →
    h.wf ≠ 0 → h.hf ≠ 0 → ¬ (1 ≤ h.ordinal ∧ h.ordinal ≤ 4) → ∃ t, exec .frameHeader s = .next t
      ∧ t.dm.last = some { roll := h.roll, ordinal := h.ordinal, db := h.db }
      ∧ t.dm.floor = s.dm.floor ∧ t.dm.enter = s.dm.enter ∧ t.dm.leave = s.dm.leave ∧ t.dm.enable = s.dm.enable
      ∧ (s.dm.state = .normal → h.db < s.dm.enter → t.dm.state = .thin)
      ∧ (s.dm.state = .normal → s.dm.enter ≤ h.db → t.dm.state = .normal)
      ∧ (s.dm.state = .thin → h.db ≤ s.dm.leave → t.dm.state = .thin)
      ∧ (s.dm.state = .thin → s.dm.leave < h.db → t.dm.state = .normal)

/-- R24, R33, R36, R37, R53, R59, R61, R62, R82, R84, R94, R95: a frame that passes its tests. The effect `v` is the whole
set-up: the frame context with every flag of R53, the working tone copy, the geometry, the notice of a change of density (none
with the enable off), then PARAM_CLAMPED. The frame then asks: a set or the group for its slot, a pass-through for its
reservation first. With nothing waiting before it, the next effect is this (settleStep): a slot that can be granted makes it
RECEIVING, the slot FILLING with the fields the SC enters; a pass-through with an entry free reserves the entry and then asks for
its slot, and without one waits; with no FREE slot it waits, and a pressure release is asked for when no slot is QUEUED or
RECORDING. While a STORE PURGE waits no slot is granted, which is the model's choice (log entry 11). A backlog item that can be
placed is placed first, which is the model's reading (log entry 19). -/
def Obligations.HeaderSetUp : Prop :=
  ∀ (s : State) (h : Header) (m : Option Matched) (rf : Nat), headHeader s = some h → s.sc.mode = .active →
    (∀ f, s.rs.intake ≠ .receiving f) → h.wf ≠ 0 → h.hf ≠ 0 →
    ((∃ p x, classify s.mu h = .indexed p x ∧ m = some x ∧ rf = x.rf) ∨ (classify s.mu h = .unindexed rf ∧ m = none)) →
    s.dm.floor ≤ h.db →
    ∀ c g f, c = classAt s.mu ((m.map Matched.cls).getD 0) → g = frameGeometry c s.cli.pr rf h →
    f = { roll := h.roll, ordinal := h.ordinal, wf := h.wf, hf := h.hf, entry := m, dest := destinationOf m s.sau
          flags :=
            { thin := nextDensity s.dm h.db == .thin, paramClamped := decide (h.ps < 20 ∨ 200 < h.ps)
              scaleLimited := g.limited, reduced := g.outcome == .reduced, cropped := g.outcome == .cropped }
          depth := c.depth, margin := c.margin, slot := none, expected := 0, records := 0, gap := false, carry := none } →
    ∃ v t, exec .frameHeader s = .next t ∧ SetsOff v t
      ∧ v.rs = { intake := if f.dest = .passThrough then .waitReservation f else .waitSlot f, work := .none
                 tone := some (s.mu.tones.getD c.tone []), geometry := some g }
      ∧ v.sau = s.sau ∧ v.cs = s.cs ∧ v.cli = s.cli ∧ v.sc = { s.sc with askAgain := true }
      ∧ v.dm = { s.dm with
          state := nextDensity s.dm h.db, last := some { roll := h.roll, ordinal := h.ordinal, db := h.db } }
      ∧ (∀ a b : List Notice,
          a = (if s.dm.enable = true ∧ s.dm.state = .normal ∧ h.db < s.dm.enter then [headerNotice .densityWarn h m h.db]
            else if s.dm.enable = true ∧ s.dm.state = .thin ∧ s.dm.leave < h.db then
              [headerNotice .densityClear h m h.db]
            else []) →
          b = (if h.ps < 20 ∨ 200 < h.ps then [headerNotice .paramClamped h m h.ps] else []) →
          s.fli.notices.length < 31 → v.fli.notices = s.fli.notices ++ a ++ b)
      ∧ v.fli = { takeHead s.fli with notices := v.fli.notices } ∧ v.mu.body = s.mu.body
      ∧ (s.sau.backlog = [] ∨ entryFree s = false →
          (∀ n w, f.dest ≠ .passThrough → s.mu.purgeTag = none → chooseSlot s.sc (cardSlot s) = some n →
            w = { v with
              rs := { v.rs with intake := .receiving { f with slot := some n } }
              sc := { v.sc with slots := s.sc.slots.set n (.held .filling
                { owner := .openFrame, roll := h.roll, ordinal := h.ordinal, depth := c.depth, re := g.re
                  flags := f.flags }) } } →
            settleStep v = some w ∧ EndOfEvent w t ∧ t.rs = w.rs ∧ slotAt t.sc n = slotAt w.sc n)
          ∧ (f.dest ≠ .passThrough → chooseSlot s.sc (cardSlot s) = none ∨ s.mu.purgeTag ≠ none →
              t.rs.intake = .waitSlot f)
          ∧ (∀ w, f.dest ≠ .passThrough → s.mu.purgeTag = none → chooseSlot s.sc (cardSlot s) = none →
              cardPathHolds s.sc = false → markerReady s = false →
              w = pressureRelease f { v with sc := { s.sc with askAgain := false } } →
              settleStep v = some w ∧ EndOfEvent w t)
          ∧ (∀ w, f.dest = .passThrough → entryFree s = true →
              w = { v with
                cs := { s.cs with queue := s.cs.queue ++ [.reservation] }, rs := { v.rs with intake := .waitSlot f } } →
              settleStep v = some w ∧ EndOfEvent w t
              ∧ ∀ n x, s.mu.purgeTag = none → chooseSlot s.sc (cardSlot s) = some n →
                x = { w with
                  rs := { w.rs with intake := .receiving { f with slot := some n } }
                  sc := { w.sc with slots := s.sc.slots.set n (.held .filling
                    { owner := .openFrame, roll := h.roll, ordinal := h.ordinal, depth := c.depth, re := g.re
                      flags := f.flags }) } } →
                settleStep w = some x ∧ EndOfEvent x t ∧ t.rs = x.rs ∧ slotAt t.sc n = slotAt x.sc n)
          ∧ (f.dest = .passThrough → entryFree s = false → markerReady s = false → t.rs.intake = .waitReservation f))
      ∧ (s.sau.backlog ≠ [] → entryFree s = true → settleStep v = some (placeHead v) ∧ EndOfEvent (placeHead v) t)

/-- R66: a LINE taken in IDLE or DISCARDING is discarded: the record leaves the FIFO and nothing else changes. In WAITING no
LINE is taken. -/
def Obligations.LineDiscardedOutsideFrame : Prop :=
  ∀ s : State,
    (∀ n samples, headLine s = some (n, samples) → (∀ f, s.rs.intake ≠ .receiving f) → ∃ t, exec .line s = .next t
      ∧ EndOfCommand (taken s) t)
    ∧ (s.rs.intake.waiting = true → exec .line s = .next (fresh s))

/-- R65, R67 to R74: a LINE taken while RECEIVING, by its number. Below the expected number, or at Hf and above, it is counted,
up to 65,535, and discarded. The expected LINE becomes one write burst, the one of its band with these inks and this
carry, the expected number goes up, and GAPPED is set when the line is short; a line whose band is empty writes no
burst. A LINE above the expected number begins with the fill of the expected line at ink 0, GAPPED set, and is itself
kept to be resampled once the gap is filled. LineHandled says the same of every LINE that is worked on: the missing lines
whose bands are empty are filled with no burst, and the first one with a band stops at its burst. -/
def Obligations.LineByNumber : Prop :=
  ∀ (s : State) (f : FrameCtx) (n : Nat) (samples : List Byte), headLine s = some (n, samples) →
    s.rs.intake = .receiving f →
    (n < f.expected ∨ f.hf ≤ n → ∃ t, exec .line s = .next t
      ∧ EndOfCommand (setIntake (.receiving { f with records := min 65535 (f.records + 1) }) (taken s)) t)
    ∧ ∀ (g : Geometry) (k : Nat), s.rs.geometry = some g → f.slot = some k →
      (n = f.expected → n < f.hf → samples ≠ [] →
        ∀ f1 sc1, f1 = (if samples.length < f.wf then
            { f with
              records := min 65535 (f.records + 1), gap := true, flags := { f.flags with gapped := true }
              expected := f.expected + 1 }
          else { f with records := min 65535 (f.records + 1), expected := f.expected + 1 }) →
        sc1 = (if samples.length < f.wf then enterGapped k s.sc else s.sc) →
        (∀ b c, mapLine g k f.depth f.margin f.carry n (lineInks (s.rs.tone.getD []) f.wf samples) = some (b, c) →
          ∃ t, exec .line s = .next t
            ∧ EndOfCommand
                { taken s with
                  rs := { s.rs with intake := .receiving { f1 with carry := some c } }
                  sc := storeSettle { sc1 with write := some b } } t)
        ∧ (mapLine g k f.depth f.margin f.carry n (lineInks (s.rs.tone.getD []) f.wf samples) = none →
          ∃ t, exec .line s = .next t
            ∧ EndOfCommand
                { taken s with rs := { s.rs with intake := .receiving f1 }, sc := storeSettle sc1 } t))
      ∧ (∀ b c, f.expected < n → n < f.hf →
        mapLine g k f.depth f.margin f.carry f.expected (List.replicate f.wf 0) = some (b, c) →
        ∃ t, exec .line s = .next t
          ∧ EndOfCommand
              { taken s with
                rs := { s.rs with
                  intake := .receiving { f with
                    records := min 65535 (f.records + 1), gap := true, flags := { f.flags with gapped := true }
                    expected := f.expected + 1, carry := some c }
                  work := .line n samples }
                sc := storeSettle { enterGapped k s.sc with write := some b } } t)
      ∧ (f.expected ≤ n → n < f.hf → f.hf ≤ 16383 → ∃ t, exec .line s = .next t
        ∧ LineHandled (taken s) { f with records := min 65535 (f.records + 1) } g k n samples t)

/-- R75: a FRAME END is ignored in IDLE and ends a discard; while RECEIVING with every line placed it makes the lines-sent
check and issues the first closing burst, the others to follow. With lines outstanding too (CloseHandled) the trailing fill
comes first, one burst at a time, and then the check with the first closing burst, or the filing where none is left. -/
def Obligations.FrameEndCloses : Prop :=
  ∀ (s : State) (sent : Nat), headFrameEnd s = some sent →
    (s.rs.intake = .idle → ∃ t, exec .frameEnd s = .next t ∧ EndOfCommand (taken s) t)
    ∧ (∀ why roll ordinal, s.rs.intake = .discarding why roll ordinal → ∃ t, exec .frameEnd s = .next t
      ∧ EndOfCommand (setIntake .idle (taken s)) t)
    ∧ (∀ f g k b bs, s.rs.intake = .receiving f → s.rs.geometry = some g → f.slot = some k → f.hf ≤ f.expected →
        closingBursts g = b :: bs → ∃ t, exec .frameEnd s = .next t
          ∧ EndOfCommand
              { taken s with
                rs := { s.rs with
                  intake := .receiving (if f.records < sent then f.gapped else f), work := .margins false bs }
                sc := storeSettle
                  { (if f.records < sent then enterGapped k s.sc else s.sc) with
                    write := some (marginBurst g k f.depth f.margin b.1 b.2) } } t)
    ∧ (∀ f g k, s.rs.intake = .receiving f → s.rs.geometry = some g → f.slot = some k → f.hf ≤ 16383 →
        ∃ t, exec .frameEnd s = .next t ∧ CloseHandled (taken s) f g k (some sent) t)

/-- R57, R60, R76, R77: a FRAME HEADER, a TARGET or a lost FRAME HEADER taken while RECEIVING raises FRAME_UNTERMINATED with the
lines left to fill and begins the close of R75 without a lines-sent check: the trailing fill, with every line placed at once
the closing bursts. That the notice is raised as the end begins is the model's choice (log entry 6), and that the record stays
at the head meanwhile is inferred from R9 (log entry 7). -/
def Obligations.ImplicitEndBegins : Prop :=
  ∀ (s : State) (f : FrameCtx) (g : Geometry) (k : Nat) (i : Instr),
    s.rs.intake = .receiving f → s.rs.geometry = some g → f.slot = some k →
    (i = .frameHeader ∧ (headHeader s).isSome = true ∧ s.sc.mode = .active)
      ∨ (i = .start ∧ (headTarget .start s).isSome = true)
      ∨ (i = .endTarget ∧ (headTarget .endSet s).isSome = true)
      ∨ (i = .batchEnd ∧ (headTarget .batchEnd s).isSome = true)
      ∨ (i = .lossIndication ∧ headLoss s = some .frameHeader) →
    (∀ b c, f.expected < f.hf →
      mapLine g k f.depth f.margin f.carry f.expected (List.replicate f.wf 0) = some (b, c) → ∃ t, exec i s = .next t
        ∧ EndOfCommand
            { raiseNotice (frameNotice .frameUnterminated f (f.hf - f.expected)) (fresh s) with
              rs := { s.rs with
                intake := .receiving { f with
                  gap := true, flags := { f.flags with gapped := true }, expected := f.expected + 1, carry := some c }
                work := .fill none }
              sc := storeSettle { enterGapped k s.sc with write := some b } } t)
    ∧ (f.hf ≤ 16383 → ∃ t, exec i s = .next t
      ∧ CloseHandled (raiseNotice (frameNotice .frameUnterminated f (f.hf - f.expected)) (fresh s)) f g k none t)

/-- R126: START with no OPEN record opens the lowest-numbered EMPTY one with its key absent and clears pass-through mode; with
no record EMPTY and none HELD it sets pass-through mode. -/
def Obligations.StartOpensRecord : Prop :=
  ∀ (s : State) (tgt : Target), headTarget .start s = some tgt → (∀ f, s.rs.intake ≠ .receiving f) →
    currentSet s.sau = none →
    (∀ n, emptyRecord s.sau = some n → ∃ u t, exec .start s = .next t ∧ SetsOff u t ∧ u.rs.intake = .idle
      ∧ u.sau = { s.sau with
          sets := s.sau.sets.set n { SetRecord.blank with state := .opened, opening := some s.sau.openings }
          openings := s.sau.openings + 1, passMode := false }
      ∧ u.fli = takeHead s.fli ∧ u.cs = s.cs ∧ u.sc.slots = s.sc.slots)
    ∧ (emptyRecord s.sau = none → (∀ r, r ∈ s.sau.sets → r.state ≠ .held) → ∃ u t, exec .start s = .next t
      ∧ SetsOff u t ∧ u.sau = { s.sau with passMode := true } ∧ u.fli = takeHead s.fli ∧ u.cs = s.cs
      ∧ u.sc.slots = s.sc.slots)

/-- R125, R29: END by what it finds: no OPEN record, where only pass-through mode is cleared; one with no key; one whose every
take was spilled; a complete one; a short one under HOLD and under SEND. In every case the record becomes as EndedAs says, a
short one raises SET_SHORT, nothing but the SAU changes, and the backlog is then served while an entry is free (drainBacklog,
which BatchEndPlacesMarker describes). Where nothing can be placed, because the backlog is empty and nothing joins it or
because no entry is free, the effect is given in full; the placing of a set that joins an empty backlog with an entry free is in
SetsSentOn. -/
def Obligations.EndEndsCurrentSet : Prop :=
  ∀ (s : State) (tgt : Target), headTarget .endSet s = some tgt → (∀ f, s.rs.intake ≠ .receiving f) →
    (currentSet s.sau = none → ∃ u t, exec .endTarget s = .next t ∧ SetsOff u t ∧ SauOnly s u
      ∧ u.sau = { s.sau with passMode := false } ∧ u.fli = takeHead s.fli)
    ∧ ∀ n r, currentSet s.sau = some n → r = setAt s.sau n →
      (s.sau.backlog = [] ∨ entryFree s = false →
        (r.title = none → ∃ u t, exec .endTarget s = .next t ∧ SetsOff u t ∧ SauOnly s u
          ∧ u.sau = { s.sau with sets := s.sau.sets.set n .blank, passMode := false } ∧ u.fli = takeHead s.fli)
        ∧ (∀ x, r.title = some x → setComplete r = true → setCards r = [] →
            ∃ u t, exec .endTarget s = .next t ∧ SetsOff u t ∧ SauOnly s u
            ∧ u.sau = { s.sau with sets := s.sau.sets.set n .blank, passMode := false } ∧ u.fli = takeHead s.fli)
        ∧ (∀ x, r.title = some x → setComplete r = false → (classAt s.mu x.cls).short = .hold →
            ∃ u t, exec .endTarget s = .next t ∧ SetsOff u t ∧ SauOnly s u ∧ SetShortRaised s u tgt n x r
            ∧ u.sau = { s.sau with
                sets := s.sau.sets.set n { r with state := .held, short := true }, passMode := false })
        ∧ (∀ x, r.title = some x → setComplete r = false → (classAt s.mu x.cls).short = .send → setCards r = [] →
            ∃ u t, exec .endTarget s = .next t ∧ SetsOff u t ∧ SauOnly s u ∧ SetShortRaised s u tgt n x r
            ∧ u.sau = { s.sau with sets := s.sau.sets.set n .blank, passMode := false }))
      ∧ (entryFree s = false →
        (∀ x, r.title = some x → setCards r ≠ [] → setComplete r = true →
            ∃ u t, exec .endTarget s = .next t ∧ SetsOff u t ∧ SauOnly s u ∧ u.fli = takeHead s.fli
            ∧ u.sau = { s.sau with
                sets := s.sau.sets.set n { r with state := .closed, short := false }
                backlog := s.sau.backlog ++ [.set n], passMode := false })
        ∧ (∀ x, r.title = some x → setCards r ≠ [] → setComplete r = false → (classAt s.mu x.cls).short = .send →
            ∃ u t, exec .endTarget s = .next t ∧ SetsOff u t ∧ SauOnly s u ∧ SetShortRaised s u tgt n x r
            ∧ u.sau = { s.sau with
                sets := s.sau.sets.set n { r with state := .closed, short := true }
                backlog := s.sau.backlog ++ [.set n], passMode := false }))
      ∧ ∃ w u t r' items, exec .endTarget s = .next t ∧ SetsOff u t ∧ EndedAs s.mu n r r' items ∧ SauOnly s w
        ∧ w.sau = { s.sau with sets := s.sau.sets.set n r', backlog := s.sau.backlog ++ items }
        ∧ (r.title = none ∨ setComplete r = true → w.fli = takeHead s.fli)
        ∧ (∀ x, r.title = some x → setComplete r = false → SetShortRaised s w tgt n x r)
        ∧ u = { drainBacklog w with sau := { (drainBacklog w).sau with passMode := false } }

/-- R127, R64, R118: BATCH END with no OPEN record and no COLLECTING group places its marker at the tail of the Card Queue at
once when an entry is free, and waits with cause TARGET when none is. An OPEN record is first ended as by END (with no
MISSING_END) and a COLLECTING group is CLOSED, and what they bring joins the backlog ahead of the marker; the backlog is then
served while an entry is free, one item at a time as WhatFollows says. With three entries free and nothing in the backlog
the jobs and the marker are placed at once. -/
def Obligations.BatchEndPlacesMarker : Prop :=
  (∀ (s : State) (tgt : Target), headTarget .batchEnd s = some tgt → (∀ f, s.rs.intake ≠ .receiving f) →
    (currentSet s.sau = none → groupState s.sau ≠ .collecting → s.sau.backlog = [] →
      (entryFree s = true → ∃ u t, exec .batchEnd s = .next t ∧ SetsOff u t
        ∧ u.cs = { s.cs with queue := s.cs.queue ++ [.marker] } ∧ u.rs = { s.rs with intake := .idle }
        ∧ u.sau = { s.sau with passMode := false } ∧ u.fli = takeHead s.fli)
      ∧ (entryFree s = false → ∃ u t, exec .batchEnd s = .next t ∧ SetsOff u t ∧ u.cs = s.cs
        ∧ u.rs = { s.rs with intake := .waitTarget tgt }
        ∧ u.sau = { s.sau with passMode := false, backlog := [.marker] } ∧ u.fli = takeHead s.fli))
    ∧ (∃ v t sets items, exec .batchEnd s = .next t ∧ SetsOff (drainBacklog v) t ∧ OpenSetEnded s sets items
      ∧ v.sau = { s.sau with
          sets := sets, passMode := false
          groupClosed := if groupState s.sau = .collecting then true else s.sau.groupClosed
          backlog := s.sau.backlog ++ items ++ (if groupState s.sau = .collecting then [.group] else []) ++ [.marker] }
      ∧ v.rs = { s.rs with intake := .waitTarget tgt } ∧ v.cs = s.cs ∧ v.cli = s.cli ∧ v.dm = s.dm
      ∧ v.sc.slots = s.sc.slots
      ∧ (∀ n x, currentSet s.sau = some n → (setAt s.sau n).title = some x → setComplete (setAt s.sau n) = false →
          s.fli.notices.length < 32 → v.fli.notices = s.fli.notices ++
            [{ kind := .setShort, roll := tgt.roll, ordinal := tgt.ordinal, key := some x.key
               sheet := lowestMissing (setAt s.sau n), setNo := some n, detail := sheetsMissing (setAt s.sau n) }])
      ∧ ((∀ n, currentSet s.sau = some n →
            (setAt s.sau n).title = none ∨ setComplete (setAt s.sau n) = true) → v.fli = takeHead s.fli))
    ∧ (s.sau.backlog = [] → s.cs.queue.length ≤ 29 → ∃ u t sets items setJobs groupJobs, exec .batchEnd s = .next t
      ∧ SetsOff u t ∧ OpenSetEnded s sets items ∧ u.rs = { s.rs with intake := .idle }
      ∧ u.cs.queue = s.cs.queue ++ (setJobs ++ groupJobs).map Entry.job ++ [.marker]
      ∧ (items = [] → setJobs = [] ∧ u.sau.sets = sets)
      ∧ (∀ n, items = [.set n] → u.sau.sets = sets.set n .blank
          ∧ ∃ j, setJobs = [j] ∧ SetJobOf s.mu (setAt s.sau n) (!setComplete (setAt s.sau n)) j)
      ∧ (groupState s.sau ≠ .collecting →
          groupJobs = [] ∧ u.sau = { s.sau with sets := u.sau.sets, passMode := false })
      ∧ (groupState s.sau = .collecting →
          u.sau = { s.sau with sets := u.sau.sets, passMode := false, group := [], groupClosed := false }
          ∧ ∃ j : Job, groupJobs = [j] ∧ j.kind = .unindexedGroup ∧ j.cls = 0 ∧ j.key = none ∧ j.sheetCount = none
            ∧ j.copies = (classAt s.mu 0).copies ∧ j.retries = (classAt s.mu 0).retries ∧ j.short = false
            ∧ j.spill = false ∧ j.nextPos = 0 ∧ j.nextCopy = 1 ∧ j.cards.length = s.sau.group.length
            ∧ ∀ (i : Nat) (g : GroupFrame), s.sau.group[i]? = some g →
                j.cards[i]? = some { slot := g.slot, sheet := i + 1, roll := g.roll, ordinal := g.ordinal })))
  ∧ ∀ s : State,
    (s.sau.backlog = [] ∨ entryFree s = false → drainBacklog s = s)
    ∧ ∀ v, s.sau.backlog ≠ [] → entryFree s = true → settleStep s = some v → drainBacklog s = drainBacklog v

/-- R57: a lost LINE, FRAME END or TARGET is only taken; a lost FRAME HEADER with no frame open brings DISCARDING. -/
def Obligations.LossIndicationByKind : Prop :=
  ∀ (s : State) (k : FilmKind), headLoss s = some k →
    (k ≠ .frameHeader → ∃ t, exec .lossIndication s = .next t ∧ EndOfCommand (taken s) t)
    ∧ (k = .frameHeader → (∀ f, s.rs.intake ≠ .receiving f) → ∃ t, exec .lossIndication s = .next t
      ∧ EndOfCommand (setIntake (.discarding .linkError 0 0) (taken s)) t)

/-! ### The chip -/

/-- R41 to R46, R51, R52: the geometry of every frame whose captured inputs lie in their ranges: neither SCALE_LIMITED nor
REDUCED gives Re = Rc, REDUCED gives Re at least Rc and an image inside the window, Re lies in 1..32,000, and the offsets
centre the image, rounded down. -/
def Obligations.GeometryOfFrame : Prop :=
  ∀ (ps wf hf rf rc pr : Nat) (fit : Fit) (landscape portrait : Rotation), (1 ≤ wf ∧ wf ≤ 16383) →
    (1 ≤ hf ∧ hf ≤ 16383) → (80 ≤ rf ∧ rf ≤ 500) → (80 ≤ rc ∧ rc ≤ 500) → (50 ≤ pr ∧ pr ≤ 200) →
    ∀ g, g = makeGeometry ps wf hf rf rc pr fit landscape portrait →
      (g.limited = false → g.outcome ≠ .reduced → g.re = rc)
      ∧ (g.outcome = .reduced → rc ≤ g.re ∧ g.wo ≤ 4096 ∧ g.ho ≤ 2912)
      ∧ (1 ≤ g.re ∧ g.re ≤ 32000) ∧ g.scale ≤ 1048576
      ∧ (2 * g.xoff ≤ 4096 - g.wo ∧ 4096 - g.wo ≤ 2 * g.xoff + 1)
      ∧ (2 * g.yoff ≤ 2912 - g.ho ∧ 2912 - g.ho ≤ 2 * g.yoff + 1)

/-- R71, R74, R75, R99: after WRITE_BURST_SERVED every address of the DRAM reads the byte the burst brings to it, and every
address outside the burst reads as before. That a dot is one byte, and at which address of its slot it lies, is the model's
choice (log entry 5), and so is the fault of a burst that would leave its slot (log entry 32). After the burst of a line
the intake is free for the next film record; during a close the next closing burst is issued. A gap or trailing fill goes on
(R67, R75 steps 1 to 3: LineHandled, CloseHandled), and with the last closing burst served the frame is filed and, after an
implicit end, the record that caused it is taken as with no frame open (R60, R76, R77: Filed; log entry 7). The slot of an
aborted frame is given back now (R79, R98, log entry 14). -/
def Obligations.WriteBurstServed : Prop :=
  (∀ (s : State) (k : TargetKind) (tgt : Target) (i : Instr), headTarget k s = some tgt →
    (∀ f, s.rs.intake ≠ .receiving f) →
    (i = .start ∧ k = .start) ∨ (i = .endTarget ∧ k = .endSet) ∨ (i = .batchEnd ∧ k = .batchEnd) →
    ∃ t, exec i s = .next t ∧ SetsOff (targetOp tgt (taken s)) t)
  ∧ ∀ (s : State) (w : WriteBurst), activeWrite s = some w →
    (writeFits w = false → exec .writeBurstServed s = .fault .outsideStore)
    ∧ (writeFits w = true → MemoryCanonical s → ∃ t, exec .writeBurstServed s = .next t
      ∧ ∀ a, dramRead t.sc.dram a = (burstByte w a).getD (dramRead s.sc.dram a))
    ∧ (writeFits w = true → w.aborted = false → s.rs.work = .none → ∃ t, exec .writeBurstServed s = .next t
      ∧ EndOfCommand
          { fresh s with sc := storeSettle { s.sc with write := none, dram := writeBurstDots w s.sc.dram } } t)
    ∧ (∀ f g k i b bs, writeFits w = true → w.aborted = false → s.rs.intake = .receiving f → s.rs.geometry = some g →
        f.slot = some k → s.rs.work = .margins i (b :: bs) → ∃ t, exec .writeBurstServed s = .next t
          ∧ EndOfCommand
              { fresh s with
                rs := { s.rs with work := .margins i bs }
                sc := storeSettle
                  { s.sc with
                    write := some (marginBurst g k f.depth f.margin b.1 b.2)
                    dram := writeBurstDots w s.sc.dram } } t)
    ∧ (∀ v, v = { fresh s with sc := { s.sc with write := none, dram := writeBurstDots w s.sc.dram } } →
        writeFits w = true →
        (w.aborted = true → ∃ t, exec .writeBurstServed s = .next t
          ∧ SetsOff { v with sc := freeSlot w.slot v.sc } t)
        ∧ (∀ i, w.aborted = false → s.rs.work = .margins i [] → ∃ t, exec .writeBurstServed s = .next t ∧ Filed i v t)
        ∧ (∀ f g k, w.aborted = false → s.rs.intake = .receiving f → s.rs.geometry = some g → f.slot = some k →
            f.hf ≤ 16383 →
          (∀ n samples, s.rs.work = .line n samples → f.expected ≤ n → n < f.hf →
            ∃ t, exec .writeBurstServed s = .next t ∧ LineHandled v f g k n samples t)
          ∧ (∀ sent, s.rs.work = .fill sent →
            ∃ t, exec .writeBurstServed s = .next t ∧ CloseHandled v f g k sent t)))

/-- R75 step 4, R91, R121: after the last closing burst of a frame for an OPEN record the slot is FILED with the sheet as owner, a
take already there is replaced and its slot freed, RETAKE and EXTRA are entered, and the intake is IDLE; an implicit end files
it in the same way (R76) and then takes the record that caused it (WriteBurstServed). That the working tone
copy stands is the model's choice (log entry 36). -/
def Obligations.FilingIntoOpenSet : Prop :=
  ∀ (s : State) (w : WriteBurst) (f : FrameCtx) (m : Matched) (n k : Nat) (chip : Chip) (i : Bool), activeWrite s = some w →
    writeFits w = true → w.aborted = false → s.rs.intake = .receiving f → s.rs.geometry.isSome = true →
    s.rs.work = .margins i [] → f.dest = .set n → f.entry = some m → f.slot = some k →
    (setAt s.sau n).state = .opened → (setAt s.sau n).sheets.length = 64 → (1 ≤ m.sheet ∧ m.sheet ≤ 64) →
    k < s.sc.slots.length → slotAt s.sc k = .held .filling chip →
    (∀ roll ordinal flags, (setAt s.sau n).sheets.getD (m.sheet - 1) .empty ≠ .filed k roll ordinal flags) →
    ∃ u t flags, exec .writeBurstServed s = .next t ∧ (i = false → SetsOff u t)
      ∧ u = fileOpen { fresh s with sc := { s.sc with write := none, dram := writeBurstDots w s.sc.dram } }
      ∧ u.rs = { s.rs with intake := .idle, work := .none, geometry := none }
      ∧ flags = { chip.flags with
          retake := chip.flags.retake || ((setAt s.sau n).sheets.getD (m.sheet - 1) .empty).present
          extra := chip.flags.extra
            || decide ((((setAt s.sau n).title.map Title.sheetCount).getD m.sheetCount) < m.sheet) }
      ∧ slotAt u.sc k = .held .filed { chip with owner := .set n m.sheet, flags := flags }
      ∧ (∀ old roll ordinal fl, (setAt s.sau n).sheets.getD (m.sheet - 1) .empty = .filed old roll ordinal fl →
          old < s.sc.slots.length → bankOf old < s.sc.banks → slotAt u.sc old = .free)
      ∧ (setAt u.sau n).state = .opened
      ∧ (setAt u.sau n).title
          = some ((setAt s.sau n).title.getD { key := m.key, sheetCount := m.sheetCount, cls := m.cls })
      ∧ (setAt u.sau n).sheets = (setAt s.sau n).sheets.set (m.sheet - 1) (.filed k f.roll f.ordinal flags)

/-- R75 step 4, R91, R92, R116, R123, R124: after the last closing burst of a frame for the group that is not its last, the slot is
FILED with the next position as owner and UNINDEXED entered, and the frame stands at the group's end. A pass-through's slot
is QUEUED with UNCOLLATED entered, and its one-card job stands in the place of the reservation. An implicit end files it in
the same way (R76). That the working tone copy stands is the model's choice (log entry 36). -/
def Obligations.FilingIntoGroupOrJob : Prop :=
  ∀ (s : State) (w : WriteBurst) (f : FrameCtx) (k : Nat) (chip : Chip) (i : Bool) (v : State), activeWrite s = some w →
    writeFits w = true → w.aborted = false → s.rs.intake = .receiving f → s.rs.geometry.isSome = true →
    s.rs.work = .margins i [] → f.slot = some k → k < s.sc.slots.length → slotAt s.sc k = .held .filling chip →
    v = { fresh s with sc := { s.sc with write := none, dram := writeBurstDots w s.sc.dram } } →
    (f.dest = .group → s.sau.group.length < 63 → ∃ u t, exec .writeBurstServed s = .next t
      ∧ (i = false → SetsOff u t) ∧ u = fileOpen v
      ∧ u.rs = { s.rs with intake := .idle, work := .none, geometry := none } ∧ u.cs = s.cs ∧ u.fli = s.fli
      ∧ slotAt u.sc k = .held .filed
          { chip with owner := .group (s.sau.group.length + 1), flags := { chip.flags with unindexed := true } }
      ∧ u.sau = { s.sau with
          group := s.sau.group
            ++ [{ slot := k, roll := f.roll, ordinal := f.ordinal, flags := { chip.flags with unindexed := true } }] })
    ∧ (∀ before after, f.dest = .passThrough → s.cs.queue = before ++ .reservation :: after →
        before.any Entry.isReservation = false → ∃ u t j, exec .writeBurstServed s = .next t
      ∧ (i = false → SetsOff u t) ∧ u = fileOpen v
      ∧ u.rs = { s.rs with intake := .idle, work := .none, geometry := none } ∧ u.sau = s.sau ∧ u.fli = s.fli
      ∧ u.cs.queue = before ++ .job j :: after ∧ j.kind = .passThrough ∧ j.cls = (f.entry.map Matched.cls).getD 0
      ∧ j.key = f.entry.map Matched.key ∧ j.sheetCount = f.entry.map Matched.sheetCount
      ∧ j.cards = [{ slot := k, sheet := (f.entry.map Matched.sheet).getD 0, roll := f.roll, ordinal := f.ordinal }]
      ∧ j.copies = (classAt s.mu j.cls).copies ∧ j.retries = (classAt s.mu j.cls).retries ∧ j.short = false
      ∧ j.spill = false ∧ j.nextPos = 0 ∧ j.nextCopy = 1
      ∧ slotAt u.sc k = .held .queued
          { chip with
            owner := .job j.id 1
            flags := { chip.flags with uncollated := true, unindexed := chip.flags.unindexed || f.entry.isNone } })

/-! ### The Frame Store -/

/-- R94, R100: the slot the SC chooses: FREE, in an enabled bank that is not the bank of the card in flight unless that is the only
candidate, with the most FREE slots and the lowest number among such banks, the lowest FREE slot of its bank; and a slot is
chosen whenever an enabled bank holds a FREE one. And which
waiting bursts the arbiters grant, and the turn afterwards. -/
def Obligations.StoreGrants : Prop :=
  (∀ (sc : Sc) (card : Option Nat),
    (∀ n, chooseSlot sc card = some n →
      n < 512 ∧ slotAt sc n = .free ∧ bankOf n < sc.banks
        ∧ (∀ i, bankOf i = bankOf n → i < n → slotAt sc i ≠ .free)
        ∧ (∀ b, b < 4 → b < sc.banks → 0 < freeInBank sc b → card.map bankOf ≠ some b →
            card.map bankOf ≠ some (bankOf n)
              ∧ (freeInBank sc b < freeInBank sc (bankOf n)
                ∨ (freeInBank sc b = freeInBank sc (bankOf n) ∧ bankOf n ≤ b))))
    ∧ (chooseSlot sc card = none → ∀ b, b < 4 → b < sc.banks → freeInBank sc b = 0))
  ∧ ∀ (sc : Sc) (w : WriteBurst) (r : ReadBurst), w.active = false → r.active = false →
    bankOf w.slot < sc.turns.length →
    (bankOf w.slot ≠ bankOf r.slot → grantBursts { sc with write := some w, read := some r }
      = { sc with write := some { w with active := true }, read := some { r with active := true } })
    ∧ (bankOf w.slot = bankOf r.slot → sc.turns.getD (bankOf w.slot) .read = .read →
        grantBursts { sc with write := some w, read := some r }
          = { sc with
              write := some w, read := some { r with active := true }
              turns := sc.turns.set (bankOf w.slot) .write })
    ∧ (bankOf w.slot = bankOf r.slot → sc.turns.getD (bankOf w.slot) .read = .write →
        grantBursts { sc with write := some w, read := some r }
          = { sc with
              write := some { w with active := true }, read := some r
              turns := sc.turns.set (bankOf w.slot) .read })
    ∧ grantBursts { sc with write := some w, read := none }
        = { sc with write := some { w with active := true }, read := none }
    ∧ grantBursts { sc with write := none, read := some r }
        = { sc with write := none, read := some { r with active := true } }

/-- R102 to R105, R108: a due moment in each state of the store, and nothing else of the part changed. A refresh ends: a deferred
one takes 1 from the count and an owed one from what is owed; while a forced refresh owes more no burst is granted and the
next refresh runs; with none forced a waiting burst goes ahead of deferred refreshes. Each due moment of a RETAINING store runs
one refresh: that one which finds a refresh still running comes behind it, and behind deferred ones once the store has
woken, is the model's choice (log entry 24), and so is that one runs when every bank is powered down (log entry 40), and that
a deferred refresh which LINK RESET found running takes 1 from the count too (log entry 39). -/
def Obligations.RefreshRules : Prop :=
  (∀ (s : State) (i : Nat), s.sc.timer = some i → ∃ sc, exec .refreshDue s = .next { fresh s with sc := sc }
    ∧ sc.timer = some s.sc.interval ∧ sc.slots = s.sc.slots ∧ sc.mode = s.sc.mode ∧ sc.dram = s.sc.dram
    ∧ (s.sc.mode = .retaining → sc.deferral = s.sc.deferral ∧ (s.sc.refresh = none → sc.refresh = some .due))
    ∧ (s.sc.mode = .retaining → s.sc.refresh ≠ none →
        sc = { s.sc with timer := some s.sc.interval, dues := s.sc.dues + 1 })
    ∧ (s.sc.mode ≠ .retaining → s.sc.forced = none → s.sc.refresh = none → burstPresent s.sc = false →
        sc.refresh = some .due ∧ sc.deferral = s.sc.deferral)
    ∧ (s.sc.mode ≠ .retaining → s.sc.forced = none → (s.sc.refresh ≠ none ∨ burstPresent s.sc = true) →
        s.sc.deferral < 8 → sc = { s.sc with timer := some s.sc.interval, deferral := s.sc.deferral + 1 })
    ∧ (s.sc.mode ≠ .retaining → s.sc.forced = none → (s.sc.refresh ≠ none ∨ burstPresent s.sc = true) →
        s.sc.deferral = 8 → sc.forced = some 1 ∧ sc.deferral = 8 ∧ sc.write = s.sc.write ∧ sc.read = s.sc.read)
    ∧ (∀ owed, s.sc.mode ≠ .retaining → s.sc.forced = some owed →
        sc = { s.sc with timer := some s.sc.interval, forced := some (owed + 1) }))
  ∧ ∀ (s : State) (r : Refresh), s.sc.refresh = some r → burstActive s.sc = false →
    ∃ sc, exec .refreshEnd s = .next { fresh s with sc := sc } ∧ sc.slots = s.sc.slots ∧ sc.dram = s.sc.dram
    ∧ (r = .deferred → sc.deferral = s.sc.deferral - 1) ∧ (r ≠ .deferred → sc.deferral = s.sc.deferral)
    ∧ (∀ owed, s.sc.forced = some owed → 0 < sc.deferral → sc.refresh = some .deferred ∧ sc.write = s.sc.write
        ∧ sc.read = s.sc.read)
    ∧ (∀ owed, s.sc.forced = some owed → sc.deferral = 0 → (if r = .owed then owed - 1 else owed) ≠ 0 →
        sc.refresh = some .owed ∧ sc.write = s.sc.write ∧ sc.read = s.sc.read)
    ∧ (s.sc.forced = none → burstPresent s.sc = true → s.sc.mode = .active → sc.refresh = none
        ∧ burstActive sc = true)
    ∧ (s.sc.forced = none → burstPresent s.sc = false → s.sc.mode ≠ .retaining → 0 < sc.deferral →
        sc.refresh = some .deferred)
    ∧ (s.sc.forced = none → burstPresent s.sc = false → s.sc.mode = .retaining ∨ sc.deferral = 0 →
        (0 < s.sc.dues → sc.refresh = some .due ∧ sc.dues = s.sc.dues - 1)
          ∧ (s.sc.dues = 0 → sc.refresh = none ∧ sc.dues = 0))

/-- R111: STORE SETUP, its checks in order; an accepted one stores both values, makes FREE slots of dropped banks OFFLINE and
slots of added banks FREE, and leaves every chip and the configuration values. -/
def Obligations.StoreSetupStores : Prop :=
  ∀ (s : State) (tag : Byte) (interval banks : Nat), mgmtHead s = some (tag, .storeSetup interval banks) →
    (¬ (2 ≤ interval ∧ interval ≤ 64 ∧ 1 ≤ banks ∧ banks ≤ 4) → ∃ t, exec .storeSetup s = .next t
      ∧ EndOfCommand (answeredBy tag 0x47 (.refused .badField) s) t)
    ∧ ((2 ≤ interval ∧ interval ≤ 64 ∧ 1 ≤ banks ∧ banks ≤ 4) →
        ((receivingNow s = true ∨ s.cli.card ≠ none) → ∃ t, exec .storeSetup s = .next t
          ∧ EndOfCommand (answeredBy tag 0x47 (.refused .notNow) s) t)
        ∧ (receivingNow s = false → s.cli.card = none →
            (droppedFree banks s.sc = false → ∃ t, exec .storeSetup s = .next t
              ∧ EndOfCommand (answeredBy tag 0x47 (.refused .notNow) s) t)
            ∧ (droppedFree banks s.sc = true → ∃ u t, exec .storeSetup s = .next t ∧ SetsOff u t
              ∧ u.fli.replies = s.fli.replies ++ [{ tag := tag, code := 0x47, result := .ok (.store interval banks) }]
              ∧ u.sc = { s.sc with interval := interval, banks := banks, slots := u.sc.slots }
              ∧ u.sc.slots.length = s.sc.slots.length
              ∧ (∀ n st c, n < s.sc.slots.length → slotAt s.sc n = .held st c → slotAt u.sc n = .held st c)
              ∧ (∀ n, n < s.sc.slots.length → (slotAt s.sc n).isFree || (slotAt s.sc n).isOffline →
                  slotAt u.sc n = if bankOf n < banks then .free else .offline)
              ∧ u.rs = s.rs ∧ u.sau = s.sau ∧ u.cs = s.cs ∧ u.cli = s.cli ∧ u.mu = s.mu ∧ u.dm = s.dm)))

/-- R107: STORE RETAIN by the mode, the intake, the card path and the refreshes. A store that is RETAINING then stays so, and
nothing else of the part changes, unless a FRAME HEADER at the head wakes it at once (R109). That a burst left over from an
ended frame or card refuses it too is the model's choice (log entry 10). -/
def Obligations.StoreRetainTable : Prop :=
  ∀ (s : State) (tag : Byte), mgmtHead s = some (tag, .storeRetain) →
    (s.sc.mode = .active → s.rs.intake = .idle → s.cli.card = none → s.sc.refresh = none → s.sc.forced = none →
      s.sc.deferral = 0 → s.sc.write = none → s.sc.read = none →
      ∀ u, u = { answeredBy tag 0x48 (.ok .none) s with sc := { s.sc with mode := .retaining } } →
      ∃ t, exec .storeRetain s = .next t ∧ EndOfCommand u t
        ∧ (headerWaits u = false → t.sc.mode = .retaining ∧ t = { u with fli := t.fli, returnOut := t.returnOut })
        ∧ (headerWaits u = true → t.sc.mode = .waking))
    ∧ (s.sc.mode = .active → (s.rs.intake ≠ .idle ∨ s.cli.card ≠ none ∨ s.sc.refresh ≠ none ∨ s.sc.forced ≠ none
        ∨ 0 < s.sc.deferral) → ∃ t, exec .storeRetain s = .next t
        ∧ EndOfCommand (answeredBy tag 0x48 (.refused .notNow) s) t ∧ t.sc.mode = .active)
    ∧ (s.sc.mode = .retaining → ∀ u, u = answeredBy tag 0x48 (.ok .none) s →
      ∃ t, exec .storeRetain s = .next t ∧ EndOfCommand u t
        ∧ (headerWaits u = false → t.sc.mode = .retaining ∧ t = { u with fli := t.fli, returnOut := t.returnOut })
        ∧ (headerWaits u = true → t.sc.mode = .waking))
    ∧ (s.sc.mode = .waking → ∃ t, exec .storeRetain s = .next t
        ∧ EndOfCommand (answeredBy tag 0x48 (.refused .notNow) s) t ∧ t.sc.mode = .waking)

/-- R110: STORE WAKE by the store mode; the reply carries the mode as it stands after the record. What leaving RETAINING sets off
comes in the order that is the model's reading (SetsOff, log entry 19). -/
def Obligations.StoreWakeTable : Prop :=
  ∀ (s : State) (tag : Byte), mgmtHead s = some (tag, .storeWake) →
    (s.sc.mode = .retaining → ∃ u t, exec .storeWake s = .next t ∧ SetsOff u t
      ∧ u = { answeredBy tag 0x49 (.ok (.mode .waking)) s with sc := { s.sc with mode := .waking } }
      ∧ t.sc.mode = .waking)
    ∧ (s.sc.mode = .waking → ∃ t, exec .storeWake s = .next t
      ∧ EndOfCommand (answeredBy tag 0x49 (.ok (.mode .waking)) s) t ∧ t.sc.mode = .waking)
    ∧ (s.sc.mode = .active → ∃ t, exec .storeWake s = .next t
      ∧ EndOfCommand (answeredBy tag 0x49 (.ok (.mode .active)) s) t ∧ t.sc.mode = .active)

/-- R112, R80, R133, R148: STORE PURGE is refused NOT_NOW while the intake is RECEIVING or a card is in flight. Otherwise the SAU
and the Card Queue are emptied, a waiting frame is aborted with FRAME_LOST (no set record number), STORE_LOST is set, and every
FILED or QUEUED slot is freed, but one that a read burst left of an ended card is working on, which is freed when that
burst has ended. With nothing to wait for, the setup is the configured one and the reply OK is placed at once; otherwise
both come at STORE_PURGE_DONE. What the purge waits for, and which of its steps wait, is the model's choice (log entry 11). -/
def Obligations.StorePurgeClears : Prop :=
  (∀ (s : State) (tag : Byte), mgmtHead s = some (tag, .storePurge) →
    ((receivingNow s = true ∨ s.cli.card ≠ none) → ∃ t, exec .storePurge s = .next t
      ∧ EndOfCommand (answeredBy tag 0x4A (.refused .notNow) s) t)
    ∧ (receivingNow s = false → s.cli.card = none → s.rs.intake.slotOk → ∃ u t, exec .storePurge s = .next t
        ∧ SetsOff u t ∧ u.mu.sticky.storeLost = true ∧ u.sc.mode = s.sc.mode ∧ u.sc.deferral = s.sc.deferral
        ∧ u.sc.turns = s.sc.turns ∧ u.sc.write = s.sc.write ∧ u.sc.dram = s.sc.dram
        ∧ ((∀ x, s.rs.intake ≠ .waitTarget x) → u.sau = .blank ∧ u.cs = .blank)
        ∧ (∀ x, s.rs.intake = .waitTarget x → x.kind = .batchEnd →
            u.sau = .blank ∧ u.cs = { Cs.blank with queue := [.marker] } ∧ u.rs = { s.rs with intake := .idle })
        ∧ (purgeWaits s.sc = false → u.sc.interval = s.sc.cfgInterval ∧ u.sc.banks = s.sc.cfgBanks
            ∧ u.mu.purgeTag = none
            ∧ u.fli.replies = s.fli.replies ++ [{ tag := tag, code := 0x4A, result := .ok .none }])
        ∧ (purgeWaits s.sc = true → u.sc.interval = s.sc.interval ∧ u.sc.banks = s.sc.banks
            ∧ u.mu.purgeTag = some tag ∧ u.fli.replies = s.fli.replies)
        ∧ (∀ n, n < s.sc.slots.length → (slotAt s.sc n).inState .filling = false →
            (slotAt s.sc n).inState .recording = false →
            (readLeftOn s.sc n = false ∨ (slotAt s.sc n).purgeable = false →
              slotAt u.sc n = if bankOf n < u.sc.banks then .free else .offline)
            ∧ (∀ r, s.sc.read = some r → r.slot = n → r.discard = true → (slotAt s.sc n).purgeable = true →
                slotAt u.sc n = slotAt s.sc n ∧ u.sc.read = some { r with release := true }))
        ∧ u.cli = { s.cli with
            failed := if s.cs.retry.isSome then none else s.cli.failed
            nextTray := if s.cs.retry.isSome then nextNumber s.cli.nextTray else s.cli.nextTray }
        ∧ (∀ f, s.rs.intake = .waitSlot f ∨ s.rs.intake = .waitReservation f →
            u.rs = { intake := .idle, work := .none, tone := none, geometry := none }
              ∧ (s.fli.notices.length < 32 → ∃ x, u.fli.notices = s.fli.notices ++ [x] ∧ x.kind = .frameLost
                  ∧ x.roll = f.roll ∧ x.ordinal = f.ordinal ∧ x.key = f.entry.map Matched.key
                  ∧ x.sheet = f.entry.map Matched.sheet ∧ x.setNo = none ∧ x.detail = 3))))
  ∧ (∀ (s : State) (r : ReadBurst), activeRead s = some r → readFits r.slot r.row = true → r.discard = true →
      r.release = true → s.cli.card = none → r.slot < s.sc.slots.length → ∃ u t, exec .readBurstServed s = .next t
        ∧ EndOfCommand u t ∧ u.cardOut = [] ∧ u.cli = s.cli ∧ u.sc.read = none
        ∧ slotAt u.sc r.slot = (if bankOf r.slot < s.sc.banks then .free else .offline)
        ∧ ∀ n, n ≠ r.slot → slotAt u.sc n = slotAt s.sc n)
  ∧ ∀ (s : State) (tag : Byte), s.mu.purgeTag = some tag →
    (purgeWaits s.sc = true → exec .storePurgeDone s = .next (fresh s))
    ∧ (purgeWaits s.sc = false → ∃ u t, exec .storePurgeDone s = .next t ∧ SetsOff u t
      ∧ u = { fresh s with
          mu := { s.mu with purgeTag := none }
          sc := { s.sc with slots := u.sc.slots, banks := s.sc.cfgBanks, interval := s.sc.cfgInterval, askAgain := true }
          fli := { s.fli with replies := s.fli.replies ++ [{ tag := tag, code := 0x4A, result := .ok .none }] } }
      ∧ ∀ n, n < s.sc.slots.length →
          ((slotAt s.sc n).isFree = true ∨ (slotAt s.sc n).isOffline = true →
            slotAt u.sc n = if bankOf n < s.sc.cfgBanks then .free else .offline)
          ∧ (∀ st chip, slotAt s.sc n = .held st chip → slotAt u.sc n = .held st chip))

/-! ### Set records and cards -/

/-- R119, R120: the destination of a frame: the current set when its key is absent or equal; else the HELD set of the frame's key
with the earliest opening order, and a HELD set whenever some HELD set has that key; else a pass-through. -/
def Obligations.DestinationOfFrame : Prop :=
  ∀ (sau : Sau) (m : Matched),
    (∀ n, currentSet sau = some n →
      (setAt sau n).title = none ∨ ((setAt sau n).title.map Title.key = some m.key) →
      destinationOf (some m) sau = .set n)
    ∧ ((∀ n, currentSet sau = some n → ∃ x, (setAt sau n).title = some x ∧ x.key ≠ m.key) →
        (∀ n, destinationOf (some m) sau = .set n →
          (setAt sau n).state = .held ∧ (setAt sau n).title.map Title.key = some m.key
            ∧ ∀ i, i < sau.sets.length → (setAt sau i).state = .held →
                (setAt sau i).title.map Title.key = some m.key →
                ((setAt sau n).opening.getD 0) ≤ ((setAt sau i).opening.getD 0))
        ∧ (∀ i, i < sau.sets.length → (setAt sau i).state = .held → (setAt sau i).title.map Title.key = some m.key →
            ∃ n, n < sau.sets.length ∧ destinationOf (some m) sau = .set n)
        ∧ ((∀ i, i < sau.sets.length → (setAt sau i).state = .held →
              (setAt sau i).title.map Title.key ≠ some m.key) →
            destinationOf (some m) sau = .passThrough)
        ∧ destinationOf (some m) sau ≠ .group)
    ∧ (groupState sau ≠ .closed → destinationOf none sau = .group)
    ∧ (groupState sau = .closed → destinationOf none sau = .passThrough)

/-- R131: SET RELEASE, its checks in order, and its effect by the record's state; the record of a HELD set is CLOSED and waits in
the backlog when no entry is free, and is placed as a short SET job at once when one is and nothing stands before it. -/
def Obligations.SetReleaseByState : Prop :=
  ∀ (s : State) (tag : Byte) (n : Nat), mgmtHead s = some (tag, .setRelease n) →
    (8 ≤ n → ∃ t, exec .setRelease s = .next t ∧ EndOfCommand (answeredBy tag 0x44 (.refused .badPosition) s) t)
    ∧ (n < 8 → openDestination s = some (.set n) ∨ (setAt s.sau n).state = .opened → ∃ t, exec .setRelease s = .next t
      ∧ EndOfCommand (answeredBy tag 0x44 (.refused .notNow) s) t)
    ∧ (n < 8 → openDestination s ≠ some (.set n) →
        (∀ st, (setAt s.sau n).state = st → st = .closed ∨ st = .empty → ∃ t, exec .setRelease s = .next t
          ∧ SetsOff (answeredBy tag 0x44 (.ok (.setState st)) s) t)
        ∧ ((setAt s.sau n).state = .held → setCards (setAt s.sau n) ≠ [] → entryFree s = false → ∃ u t,
            exec .setRelease s = .next t ∧ SetsOff u t
            ∧ u.fli.replies = s.fli.replies ++ [{ tag := tag, code := 0x44, result := .ok (.setState .closed) }]
            ∧ u.sau = { s.sau with
                sets := s.sau.sets.set n { setAt s.sau n with state := .closed, short := true }
                backlog := s.sau.backlog ++ [.set n] })
        ∧ ((setAt s.sau n).state = .held → setCards (setAt s.sau n) ≠ [] → entryFree s = true → s.sau.backlog = [] →
            ∃ u t j, exec .setRelease s = .next t ∧ SetsOff u t
            ∧ u.fli.replies = s.fli.replies ++ [{ tag := tag, code := 0x44, result := .ok (.setState .empty) }]
            ∧ u.sau = { s.sau with sets := s.sau.sets.set n .blank }
            ∧ u.cs.queue = s.cs.queue ++ [.job j] ∧ j.kind = .set ∧ j.short = true
            ∧ j.spill = (setAt s.sau n).spill ∧ j.cards = setCards (setAt s.sau n)
            ∧ j.key = (setAt s.sau n).title.map Title.key ∧ j.nextPos = 0 ∧ j.nextCopy = 1)
        ∧ ((setAt s.sau n).state = .held → setCards (setAt s.sau n) = [] → s.sau.backlog = [] → ∃ u t,
            exec .setRelease s = .next t ∧ SetsOff u t
            ∧ u.fli.replies = s.fli.replies ++ [{ tag := tag, code := 0x44, result := .ok (.setState .empty) }]
            ∧ u.sau = { s.sau with sets := s.sau.sets.set n .blank } ∧ u.cs = s.cs))

/-- R132: SET DISCARD is checked as SET RELEASE is; a HELD or CLOSED record is emptied, its item leaves the backlog, its FILED
slots are FREE, and the reply counts them. -/
def Obligations.SetDiscardFrees : Prop :=
  ∀ (s : State) (tag : Byte) (n : Nat), mgmtHead s = some (tag, .setDiscard n) →
    (8 ≤ n → ∃ t, exec .setDiscard s = .next t ∧ EndOfCommand (answeredBy tag 0x45 (.refused .badPosition) s) t)
    ∧ (n < 8 → openDestination s = some (.set n) ∨ (setAt s.sau n).state = .opened → ∃ t, exec .setDiscard s = .next t
      ∧ EndOfCommand (answeredBy tag 0x45 (.refused .notNow) s) t)
    ∧ (n < 8 → openDestination s ≠ some (.set n) →
        ((setAt s.sau n).state = .empty → ∃ t, exec .setDiscard s = .next t
          ∧ EndOfCommand (answeredBy tag 0x45 (.ok (.freed 0)) s) t)
        ∧ ((setAt s.sau n).state = .held ∨ (setAt s.sau n).state = .closed → ∃ u t, exec .setDiscard s = .next t
          ∧ SetsOff u t
          ∧ u.fli.replies = s.fli.replies
              ++ [{ tag := tag, code := 0x45, result := .ok (.freed (setCards (setAt s.sau n)).length) }]
          ∧ u.sau = { s.sau with
              sets := s.sau.sets.set n .blank, backlog := s.sau.backlog.filter (fun x => x != .set n) }
          ∧ u.cs = s.cs ∧ u.fli.notices = s.fli.notices
          ∧ (∀ c, c ∈ setCards (setAt s.sau n) → c.slot < s.sc.slots.length → bankOf c.slot < s.sc.banks →
              (slotAt s.sc c.slot).inState .filed = true → slotAt u.sc c.slot = .free)
          ∧ (∀ i, (∀ c, c ∈ setCards (setAt s.sau n) → c.slot ≠ i) → slotAt u.sc i = slotAt s.sc i)))

/-- R138, R139, R144, R145: the job selected stands ahead of the first marker and no other such job goes before it: by level,
then class number, then place in the queue; with jobs ahead of the marker one is selected. A break-in job is sought when
the current job's card ended last and its class yields: there is one exactly when another job ahead of the marker has
level 3 and break-in yes, and of several it is the one of R139's order; it becomes current, the yielding job the interrupted
one, and SEPARATOR_OPEN goes first. A pending retry goes before all else, with its attempt (R141); with none, a break-in in
progress names its card: a separator, or the break-in job's next card. At a boundary, with nothing before it (CardsNext), the
card chosen is opened. When the
last card of a break-in's job has ended, the break-in is CLOSING and SEPARATOR_CLOSE is the next card. -/
def Obligations.SelectionOrder : Prop :=
  (∀ s : State,
    (∀ j, selectJob s = some j → ∃ before after, jobsAhead s.cs.queue = before ++ j :: after
      ∧ (∀ k, k ∈ before → goesBefore s.mu j k = true) ∧ ∀ k, k ∈ after → goesBefore s.mu k j = false)
    ∧ (selectJob s = none → jobsAhead s.cs.queue = [])
    ∧ ∀ a b : Job, goesBefore s.mu b a = true ↔
        (classAt s.mu a.cls).level < (classAt s.mu b.cls).level
          ∨ ((classAt s.mu a.cls).level = (classAt s.mu b.cls).level ∧ b.cls < a.cls))
  ∧ (∀ (s : State) (j : Job) (urgent : List Job),
      urgent = (jobsAhead s.cs.queue).filter (fun k =>
        k.id != j.id && (classAt s.mu k.cls).level == 3 && (classAt s.mu k.cls).breakIn) →
      (s.cs.last ≠ .job j.id ∨ (classAt s.mu j.cls).yield = false ∨ urgent = [] → breakInJob s j = none)
      ∧ (s.cs.last = .job j.id → (classAt s.mu j.cls).yield = true → urgent ≠ [] → ∃ u before after,
          breakInJob s j = some u ∧ urgent = before ++ u :: after ∧ (∀ k, k ∈ before → goesBefore s.mu u k = true)
            ∧ ∀ k, k ∈ after → goesBefore s.mu k u = false))
  ∧ (∀ s : State, s.cs.retry = none → s.cs.breakIn = none →
      (∀ j, currentJob s = some j →
        (∀ u, breakInJob s j = some u → ∃ t, chooseCard s = some (t, .separatorOpen, 1)
          ∧ t = { s with cs := { s.cs with
              current := some u.id
              breakIn := some
                { phase := .opening, interrupted := j.id, key := u.key, sheetCount := u.sheetCount, cls := u.cls
                  retries := u.retries } } })
        ∧ (breakInJob s j = none → ∀ p, j.cards[j.nextPos]? = some p →
            chooseCard s = some (s, .chip j.id (j.nextPos + 1) j.nextCopy p.slot, 1)))
      ∧ (currentJob s = none → ∀ j p, selectJob s = some j → j.cards[j.nextPos]? = some p →
          chooseCard s = some ({ s with cs := { s.cs with current := some j.id } },
            .chip j.id (j.nextPos + 1) j.nextCopy p.slot, 1)))
  ∧ (∀ (s : State) (a : Nat), s.cs.retry = some a ∨ (s.cs.retry = none ∧ s.cs.breakIn ≠ none ∧ a = 1) →
      (∀ b, s.cs.breakIn = some b → b.phase = .opening → chooseCard s = some (s, .separatorOpen, a))
      ∧ (∀ b, s.cs.breakIn = some b → b.phase = .closing → chooseCard s = some (s, .separatorClose, a))
      ∧ ((∀ b, s.cs.breakIn = some b → b.phase = .running) → ∀ j p, currentJob s = some j →
          j.cards[j.nextPos]? = some p → chooseCard s = some (s, .chip j.id (j.nextPos + 1) j.nextCopy p.slot, a)))
  ∧ (∀ s : State, CardsNext s → NoRelease s → markerReady s = false →
      (s.cli.card = none → s.cli.ready = true → s.sc.mode ≠ .retaining →
        (∀ t k attempt, chooseCard s = some (t, k, attempt) → settleStep s = some (openCard k attempt t))
          ∧ (chooseCard s = none → settleStep s = none))
      ∧ (s.cli.card ≠ none ∨ s.cli.ready = false ∨ s.sc.mode = .retaining → settleStep s = none))
  ∧ ∀ (s : State) (c : Card) (echo : Word16) (j : Job) (b : BreakIn) (position copy slot : Nat),
      s.cli.card = some c → c.state = .awaiting → echo.toNat = c.tray → c.kind = .chip j.id position copy slot →
      findJob j.id s.cs.queue = some j → j.nextCopy = copy → j.copies ≤ copy → j.cards.length ≤ j.nextPos + 1 →
      s.cs.breakIn = some b → b.phase = .running → ∃ u t, exec (.cardAccepted echo) s = .next t ∧ SetsOff u t
        ∧ u.cs = { s.cs with
            queue := s.cs.queue.filter (fun e => !e.isJob j.id), current := none
            breakIn := some { b with phase := .closing }, last := .job j.id }
        ∧ (s.cs.retry = none → chooseCard u = some (u, .separatorClose, 1))

/-- R138, R141, R153 to R158: the sending of a card. At a boundary with a current job and nothing before it, the job's next card
is opened: attempt 1 takes the next tray sequence, unchanged by it, and a pending retry goes out with its attempt under the
tray sequence of the failed-attempt record, which is cleared; the slot goes from QUEUED to RECORDING, CARD OPEN carries every
field of the header, its flags those of the slot with the job's SHORT_SET and SPILL, the card is SENDING at line 0, and the
read burst of row 0 is asked for once no other is out. A separator goes at once from CARD OPEN, its header that of the
break-in job with its own flag alone, to CARD CLOSE and AWAITING. A read burst served for the SENDING card sends the CHIP LINE
of its row at the slot's depth, then the next row is read, or after line 2,911 CARD CLOSE is sent, the card is AWAITING and the
timer starts; a row read for a card that has ended is dropped, and the card's own row then asked for. RECORDER STATE: one equal to the state held changes nothing; NOT_READY pauses a SENDING card; READY brings a
PAUSED card back to SENDING, a buffered row going first; an AWAITING card and its timer stand; nothing outside the CLI and the
read burst changes. -/
def Obligations.CardSentAndPaused : Prop :=
  (∀ (s : State) (a tray : Nat), CardsNext s → NoRelease s → markerReady s = false → s.cli.card = none →
    s.cli.ready = true → s.sc.mode ≠ .retaining →
    (s.cs.retry = none ∧ a = 1 ∧ tray = s.cli.nextTray)
      ∨ (s.cs.retry = some a ∧ 2 ≤ a ∧ ∃ cause, s.cli.failed = some (tray, cause)) →
    (∀ (j : Job) (p : CardPos) (chip : Chip),
      (s.cs.breakIn = none ∧ (s.cs.retry = none → breakInJob s j = none))
        ∨ (∃ b, s.cs.breakIn = some b ∧ b.phase = .running) →
      currentJob s = some j → j.cards[j.nextPos]? = some p → p.slot < s.sc.slots.length →
      slotAt s.sc p.slot = .held .queued chip → ∃ u, settleStep s = some u
      ∧ u = { s with
          cs := { s.cs with retry := none }
          sc := { s.sc with
            slots := s.sc.slots.set p.slot (.held .recording chip)
            read := some (s.sc.read.getD
              { slot := p.slot, row := 0, active := false, discard := false, release := false }) }
          cli := { s.cli with
            failed := none
            card := some { state := .sending, kind := .chip j.id (j.nextPos + 1) j.nextCopy p.slot, attempt := a
                           tray := tray, nextLine := 0, buffer := none } }
          cardOut := s.cardOut ++ [cardOpenRecord
            { number := (j.key.map DrawingKey.number).getD (List.replicate 16 0x20)
              revision := j.key.bind DrawingKey.revision, sheet := if j.key.isSome then p.sheet else 0
              sheetCount := j.sheetCount.getD 0, re := chip.re, roll := chip.roll, ordinal := chip.ordinal, cls := j.cls
              copy := j.nextCopy, attempt := a, batch := s.cli.batch, tray := tray
              flags := { chip.flags with shortSet := j.short, spill := j.spill }, depth := chip.depth }] })
    ∧ (∀ (v : State) (k : CardKind) (flags : CardFlags) (b : BreakIn), chooseCard s = some (v, k, a) →
      (k = .separatorOpen ∧ flags = { separatorOpen := true })
        ∨ (k = .separatorClose ∧ flags = { separatorClose := true }) →
      v.cs.breakIn = some b → v = { s with cs := v.cs } ∧ ∃ u, settleStep s = some u
      ∧ u = { s with
          cs := { v.cs with retry := none }
          cli := { s.cli with
            failed := none, timer := some s.cli.timeout
            card := some { state := .awaiting, kind := k, attempt := a, tray := tray, nextLine := 0, buffer := none } }
          cardOut := s.cardOut ++
            [cardOpenRecord
              { number := (b.key.map DrawingKey.number).getD (List.replicate 16 0x20)
                revision := b.key.bind DrawingKey.revision, sheet := 0, sheetCount := b.sheetCount.getD 0, re := 0
                roll := 0, ordinal := 0, cls := b.cls, copy := 1, attempt := a, batch := s.cli.batch, tray := tray
                flags := flags, depth := 0 },
             cardCloseRecord tray] }))
  ∧ (∀ (s : State) (r : ReadBurst) (c : Card) (job position copy slot : Nat) (chip : Chip), activeRead s = some r →
    readFits r.slot r.row = true → r.discard = false → r.release = false → s.cli.card = some c →
    c.state = .sending → c.kind = .chip job position copy slot → slotAt s.sc slot = .held .recording chip →
    (c.nextLine < 2911 → ∃ t, exec .readBurstServed s = .next t
      ∧ EndOfCommand
          { fresh s with
            cardOut := [chipLineRecord chip.depth c.nextLine (readRow s.sc.dram r.slot r.row)]
            cli := { s.cli with card := some { c with buffer := none, nextLine := c.nextLine + 1 } }
            sc := storeSettle
              { s.sc with
                read := some
                  { slot := slot, row := c.nextLine + 1, active := false, discard := false, release := false } } } t)
    ∧ (c.nextLine = 2911 → ∃ t, exec .readBurstServed s = .next t
      ∧ EndOfCommand
          { fresh s with
            cardOut := [chipLineRecord chip.depth 2911 (readRow s.sc.dram r.slot r.row), cardCloseRecord c.tray]
            cli := { s.cli with
              card := some { c with buffer := none, nextLine := 2912, state := .awaiting }
              timer := some s.cli.timeout }
            sc := storeSettle { s.sc with read := none } } t))
  ∧ (∀ (s : State) (r : ReadBurst) (c : Card) (job position copy slot : Nat), activeRead s = some r →
    readFits r.slot r.row = true → r.discard = true → r.release = false → s.cli.card = some c → c.state = .sending →
    c.kind = .chip job position copy slot → c.buffer = none → c.nextLine < 2912 → ∃ t,
      exec .readBurstServed s = .next t
      ∧ EndOfCommand
          { fresh s with
            sc := storeSettle
              { s.sc with
                read := some
                  { slot := slot, row := c.nextLine, active := false, discard := false, release := false } } } t)
  ∧ ∀ (s : State) (ready : Bool), ∃ u t, exec (.recorderState ready) s = .next t ∧ SetsOff u t
    ∧ u = { fresh s with sc := { s.sc with read := u.sc.read }, cli := u.cli, cardOut := u.cardOut }
    ∧ (s.cli.ready = ready → u = fresh s)
    ∧ (s.cli.ready ≠ ready → s.cli.card = none → u = { fresh s with cli := { s.cli with ready := ready } })
    ∧ ∀ c, s.cli.ready ≠ ready → s.cli.card = some c →
        (c.state = .awaiting → u = { fresh s with cli := { s.cli with ready := ready } })
        ∧ (c.state = .sending → ready = false →
            u = { fresh s with cli := { s.cli with ready := false, card := some { c with state := .paused } } })
        ∧ (∀ job position copy slot row st chip, c.state = .paused → ready = true →
            c.kind = .chip job position copy slot → slotAt s.sc slot = .held st chip → c.buffer = some row →
            (c.nextLine < 2911 → s.sc.read = none → u =
              { fresh s with
                cli := { s.cli with
                  ready := true
                  card := some { c with state := .sending, buffer := none, nextLine := c.nextLine + 1 } }
                cardOut := [chipLineRecord chip.depth c.nextLine row]
                sc := { s.sc with
                  read := some
                    { slot := slot, row := c.nextLine + 1, active := false, discard := false, release := false } } })
            ∧ (c.nextLine = 2911 → u =
              { fresh s with
                cli := { s.cli with
                  ready := true, timer := some s.cli.timeout
                  card := some { c with state := .awaiting, buffer := none, nextLine := 2912 } }
                cardOut := [chipLineRecord chip.depth 2911 row, cardCloseRecord c.tray] }))
        ∧ (∀ job position copy slot, c.state = .paused → ready = true → c.kind = .chip job position copy slot →
            c.buffer = none → c.nextLine < 2912 →
            (∀ r, s.sc.read = some r →
              u = { fresh s with cli := { s.cli with ready := true, card := some { c with state := .sending } } })
            ∧ (s.sc.read = none → u =
              { fresh s with
                cli := { s.cli with ready := true, card := some { c with state := .sending } }
                sc := { s.sc with
                  read := some
                    { slot := slot, row := c.nextLine, active := false, discard := false, release := false } } }))

/-- R141, R142, R145, R159, R163: CARD ACCEPTED echoing the AWAITING card's tray sequence: COMPLETED. The timer stops, the tray sequence
goes up, the slot is FREE after the last copy and QUEUED otherwise, and the job moves to its next copy or position, or
ends. For a separator the break-in goes on: from OPENING to RUNNING, and from CLOSING to its end, the interrupted job current
again. -/
def Obligations.CardAcceptedCompletes : Prop :=
  (∀ (s : State) (c : Card) (echo : Word16) (j : Job) (position copy slot : Nat) (chip : Chip),
    s.cli.card = some c → c.state = .awaiting → echo.toNat = c.tray → c.kind = .chip j.id position copy slot →
    findJob j.id s.cs.queue = some j → j.nextCopy = copy → slot < s.sc.slots.length → bankOf slot < s.sc.banks →
    slotAt s.sc slot = .held .recording chip → ∃ u t, exec (.cardAccepted echo) s = .next t ∧ SetsOff u t
      ∧ u.cli = { s.cli with card := none, timer := none, failed := none, nextTray := nextNumber s.cli.nextTray }
      ∧ u.fli = s.fli ∧ u.cs.retry = s.cs.retry ∧ u.cardOut = [] ∧ u.sau = s.sau ∧ u.rs = s.rs
      ∧ (j.copies ≤ copy → slotAt u.sc slot = .free)
      ∧ (copy < j.copies → slotAt u.sc slot = .held .queued chip)
      ∧ (copy < j.copies → j.nextPos < j.cards.length →
          findJob j.id u.cs.queue = some { j with nextCopy := copy + 1 })
      ∧ (j.copies ≤ copy → j.nextPos + 1 < j.cards.length →
          findJob j.id u.cs.queue = some { j with nextPos := j.nextPos + 1, nextCopy := 1 })
      ∧ (j.copies ≤ copy → j.cards.length ≤ j.nextPos + 1 →
          u.cs.queue = s.cs.queue.filter (fun e => !e.isJob j.id) ∧ u.cs.current = none)
      ∧ ∀ i, i ≠ slot → slotAt u.sc i = slotAt s.sc i)
  ∧ ∀ (s : State) (c : Card) (echo : Word16) (b : BreakIn), s.cli.card = some c → c.state = .awaiting →
      echo.toNat = c.tray → s.cs.breakIn = some b →
      (c.kind = .separatorOpen ∧ b.phase = .opening) ∨ (c.kind = .separatorClose ∧ b.phase = .closing) →
      ∃ u t, exec (.cardAccepted echo) s = .next t ∧ SetsOff u t
        ∧ u.cli = { s.cli with card := none, timer := none, failed := none, nextTray := nextNumber s.cli.nextTray }
        ∧ u.fli = s.fli ∧ u.sc.slots = s.sc.slots ∧ u.cardOut = [] ∧ u.cs.queue = s.cs.queue
        ∧ (b.phase = .opening → u.cs.breakIn = some { b with phase := .running } ∧ u.cs.current = s.cs.current)
        ∧ (b.phase = .closing → u.cs.breakIn = none ∧ u.cs.current = some b.interrupted)

/-- R159, R141, R157: a failed attempt below the captured retries + 1 sets a pending retry of the same card, under the same tray
sequence, with no notice and no progress; the last attempt is REJECTED with CARD_REJECTED and the tray sequence goes up. -/
def Obligations.FailedAttempt : Prop :=
  ∀ (s : State) (c : Card) (i : Instr) (cause : Cause) (j : Job) (position copy slot : Nat) (chip : Chip),
    s.cli.card = some c → c.state = .awaiting → Fails s c i cause → c.kind = .chip j.id position copy slot →
    findJob j.id s.cs.queue = some j → slot < s.sc.slots.length → bankOf slot < s.sc.banks →
    slotAt s.sc slot = .held .recording chip → ∃ u t, exec i s = .next t ∧ SetsOff u t
      ∧ u.cli.card = none ∧ u.cli.timer = none ∧ u.cardOut = []
      ∧ (c.attempt ≤ j.retries → u.cli.failed = some (c.tray, cause) ∧ u.cli.nextTray = s.cli.nextTray
          ∧ u.cs.retry = some (c.attempt + 1) ∧ u.cs.queue = s.cs.queue ∧ u.fli = s.fli
          ∧ slotAt u.sc slot = .held .queued chip)
      ∧ (j.retries < c.attempt → u.cli.failed = none ∧ u.cli.nextTray = nextNumber s.cli.nextTray
          ∧ u.cs.retry = s.cs.retry
          ∧ (s.fli.notices.length < 32 → ∃ x, u.fli.notices = s.fli.notices ++ [x] ∧ x.kind = .cardRejected
              ∧ x.key = j.key ∧ x.setNo = none ∧ x.detail = cause.code * 65536 + c.tray)
          ∧ (j.copies ≤ copy → slotAt u.sc slot = .free)
          ∧ (copy < j.copies → slotAt u.sc slot = .held .queued chip))

/-- R152, R161, R180: a CARD ACCEPTED or CARD SPOILED that answers no card raises LATE_RESPONSE and changes nothing else, but for
an acceptance that withdraws a pending retry: with no card in flight and the failed-attempt record holding the echo with
cause TIMEOUT, the record and the retry are cleared and the tray sequence goes up. A recorder's record that fails its check,
or whose length or coded value does not fit its kind, or whose kind is unknown, is dropped as if it had not been sent. -/
def Obligations.RecorderRecordsNotTaken : Prop :=
  (∀ (s : State) (echo : Word16), answered s echo.toNat = none →
    (withdrawable s echo.toNat = false → ∃ x t, exec (.cardAccepted echo) s = .next t
        ∧ SetsOff (raiseNotice x (fresh s)) t ∧ x.kind = .lateResponse ∧ x.setNo = none
        ∧ x.detail = 0xD1 * 65536 + echo.toNat
        ∧ (failedEcho s echo.toNat = false → x.roll = 0 ∧ x.ordinal = 0 ∧ x.key = none ∧ x.sheet = none))
    ∧ (∀ k, withdrawable s echo.toNat = true → presentKind s = some k →
        ∃ u t, exec (.cardAccepted echo) s = .next t ∧ SetsOff u t
        ∧ u.cli = { s.cli with failed := none, nextTray := nextNumber s.cli.nextTray } ∧ u.cs.retry = none
        ∧ (s.fli.notices.length < 32 → ∃ x, u.fli.notices = s.fli.notices ++ [x] ∧ x.kind = .lateResponse
            ∧ x.detail = 0xD1 * 65536 + echo.toNat))
    ∧ (∀ reason, ∃ x t, exec (.cardSpoiled echo reason) s = .next t ∧ SetsOff (raiseNotice x (fresh s)) t
        ∧ x.kind = .lateResponse ∧ x.setNo = none ∧ x.detail = 0xD2 * 65536 + echo.toNat
        ∧ (failedEcho s echo.toNat = false → x.roll = 0 ∧ x.ordinal = 0 ∧ x.key = none ∧ x.sheet = none)))
  ∧ ∀ (r : LinkRecord) (s : State),
    (checkHolds r = false ∨ (r.kind = 0xD0 ∧ (r.payload.length ≠ 1 ∨ 1 < nat8 r.payload 0))
      ∨ (r.kind = 0xD1 ∧ r.payload.length ≠ 2)
      ∨ (r.kind = 0xD2 ∧ (r.payload.length ≠ 3 ∨ nat8 r.payload 2 = 0 ∨ 4 < nat8 r.payload 2))
      ∨ (r.kind = 0xD3 ∧ r.payload ≠ []) ∨ r.kind.toNat < 0xD0 ∨ 0xD3 < r.kind.toNat) →
    exec (.recorderMessageDropped r) s = .next (fresh s)

/-- R146, R162: CARD CANCEL with a card in flight, in any state, sends CARD ABANDON and ends the attempt REJECTED with cause
CANCELLED, with no retry; with none it changes nothing. The reply is OK with the card's tray sequence and attempt, or no card. -/
def Obligations.CardCancelRejects : Prop :=
  ∀ (s : State) (tag : Byte), mgmtHead s = some (tag, .cardCancel) →
    (s.cli.card = none → ∃ t, exec .cardCancel s = .next t
      ∧ EndOfCommand (answeredBy tag 0x46 (.ok (.cancelled none)) s) t)
    ∧ (∀ c, s.cli.card = some c → ∃ u t, exec .cardCancel s = .next t ∧ SetsOff u t
      ∧ u.fli.replies = s.fli.replies
          ++ [{ tag := tag, code := 0x46, result := .ok (.cancelled (some (c.tray, c.attempt))) }]
      ∧ u.cardOut = [cardAbandonRecord c.tray]
      ∧ u.cli = { s.cli with card := none, timer := none, failed := none, nextTray := nextNumber s.cli.nextTray }
      ∧ u.cs.retry = s.cs.retry
      ∧ (s.fli.notices.length < 32 → ∃ x, u.fli.notices = s.fli.notices ++ [x] ∧ x.kind = .cardRejected
          ∧ x.detail = 7 * 65536 + c.tray)
      ∧ (∀ r, s.sc.read = some r → u.sc.read = some { r with discard := true }))

/-- R114, R118, R122, R123, R125, R126, R128, R130: how sets and the group go on to the card path. END with an entry free places a
complete set, and a short one under SEND after SET_SHORT, as a SET job at once. START over an OPEN record raises MISSING_END
and ends it as by END before it opens the lowest-numbered EMPTY record; with none EMPTY it forces the oldest HELD set out,
SET_FORCED with detail 1. A fill that completes a HELD set closes it, and one that does not leaves it HELD. The 64th frame
closes the group. A pressure release forces out the oldest HELD set that is not the waiting frame's destination, SET_FORCED
with detail 2, or closes the group, or asks for the current set's filed sheets, or finds nothing to send. -/
def Obligations.SetsSentOn : Prop :=
  (∀ (s : State) (tgt : Target) (n : Nat) (r : SetRecord) (x : Title), headTarget .endSet s = some tgt →
    (∀ f, s.rs.intake ≠ .receiving f) → currentSet s.sau = some n → r = setAt s.sau n → r.title = some x →
    setCards r ≠ [] → s.sau.backlog = [] → entryFree s = true →
    setComplete r = true ∨ (classAt s.mu x.cls).short = .send →
      ∃ u t j, exec .endTarget s = .next t ∧ SetsOff u t ∧ SetJobOf s.mu r (!setComplete r) j
        ∧ u.sau = { s.sau with sets := s.sau.sets.set n .blank, passMode := false }
        ∧ u.cs = { s.cs with queue := s.cs.queue ++ [.job j], nextId := s.cs.nextId + 1 }
        ∧ SlotsQueued s u j.id (setCards r) ∧ u.rs = { s.rs with intake := .idle } ∧ u.cli = s.cli
        ∧ (setComplete r = true → u.fli = takeHead s.fli)
        ∧ (setComplete r = false → s.fli.notices.length < 32 → u.fli.notices = s.fli.notices ++
            [{ kind := .setShort, roll := tgt.roll, ordinal := tgt.ordinal, key := some x.key, sheet := lowestMissing r
               setNo := some n, detail := sheetsMissing r }]))
  ∧ (∀ (s : State) (tgt : Target) (n : Nat) (r opened : SetRecord) (missing : Notice), headTarget .start s = some tgt →
    (∀ f, s.rs.intake ≠ .receiving f) → currentSet s.sau = some n → r = setAt s.sau n →
    missing = { kind := .missingEnd, roll := tgt.roll, ordinal := tgt.ordinal, key := r.title.map Title.key, sheet := none
                setNo := some n, detail := sheetsPresent r } →
    s.fli.notices.length < 31 → opened = { SetRecord.blank with state := .opened, opening := some s.sau.openings } →
    (∀ m, r.title = none → s.sau.backlog = [] ∨ entryFree s = false →
      emptyRecord { s.sau with sets := s.sau.sets.set n .blank } = some m → ∃ u t, exec .start s = .next t ∧ SetsOff u t
        ∧ u.sau = { s.sau with
            sets := (s.sau.sets.set n .blank).set m opened, openings := s.sau.openings + 1, passMode := false }
        ∧ u.fli.notices = s.fli.notices ++ [missing] ∧ u.cs = s.cs ∧ u.rs = { s.rs with intake := .idle })
    ∧ (∀ m x, r.title = some x → setComplete r = false → (classAt s.mu x.cls).short = .hold →
      s.sau.backlog = [] ∨ entryFree s = false → emptyRecord s.sau = some m → ∃ u t, exec .start s = .next t ∧ SetsOff u t
        ∧ u.sau = { s.sau with
            sets := (s.sau.sets.set n { r with state := .held, short := true }).set m opened
            openings := s.sau.openings + 1, passMode := false }
        ∧ u.fli.notices = s.fli.notices ++ [missing,
            { kind := .setShort, roll := tgt.roll, ordinal := tgt.ordinal, key := some x.key, sheet := lowestMissing r
              setNo := some n, detail := sheetsMissing r }]
        ∧ u.cs = s.cs ∧ u.rs = { s.rs with intake := .idle })
    ∧ (∀ m x, r.title = some x → setComplete r = true → setCards r ≠ [] → s.sau.backlog = [] → entryFree s = true →
      emptyRecord { s.sau with sets := s.sau.sets.set n .blank } = some m → ∃ u t j, exec .start s = .next t ∧ SetsOff u t
        ∧ SetJobOf s.mu r false j
        ∧ u.sau = { s.sau with
            sets := (s.sau.sets.set n .blank).set m opened, openings := s.sau.openings + 1, passMode := false }
        ∧ u.fli.notices = s.fli.notices ++ [missing] ∧ u.cs.queue = s.cs.queue ++ [.job j]
        ∧ u.rs = { s.rs with intake := .idle }))
  ∧ (∀ (s : State) (tgt : Target) (n : Nat) (r : SetRecord), headTarget .start s = some tgt →
    (∀ f, s.rs.intake ≠ .receiving f) → currentSet s.sau = none → emptyRecord s.sau = none → OldestHeld s.sau none n →
    r = setAt s.sau n → setCards r ≠ [] → s.fli.notices.length < 32 → ∀ forced : Notice, forced =
      { kind := .setForced, roll := tgt.roll, ordinal := tgt.ordinal, key := r.title.map Title.key, sheet := lowestMissing r
        setNo := some n, detail := 1 } →
    (s.sau.backlog = [] → entryFree s = true → ∃ u t j, exec .start s = .next t ∧ SetsOff u t ∧ SetJobOf s.mu r true j
      ∧ u.sau = { s.sau with
          sets := s.sau.sets.set n { SetRecord.blank with state := .opened, opening := some s.sau.openings }
          openings := s.sau.openings + 1, passMode := false }
      ∧ u.cs.queue = s.cs.queue ++ [.job j] ∧ SlotsQueued s u j.id (setCards r)
      ∧ u.fli.notices = s.fli.notices ++ [forced])
    ∧ (entryFree s = false → ∃ u t, exec .start s = .next t ∧ SetsOff u t
      ∧ u.sau = { s.sau with
          sets := s.sau.sets.set n { r with state := .closed, short := true }, backlog := s.sau.backlog ++ [.set n]
          passMode := true }
      ∧ u.cs = s.cs ∧ u.fli.notices = s.fli.notices ++ [forced]))
  ∧ (∀ (s : State) (w : WriteBurst) (f : FrameCtx) (k : Nat) (chip : Chip), activeWrite s = some w →
    writeFits w = true → w.aborted = false → s.rs.intake = .receiving f → s.rs.geometry.isSome = true →
    s.rs.work = .margins false [] → f.slot = some k → k < s.sc.slots.length → slotAt s.sc k = .held .filling chip →
    (∀ n m x, f.dest = .set n → f.entry = some m → (1 ≤ m.sheet ∧ m.sheet ≤ 64) → (setAt s.sau n).state = .held →
      (setAt s.sau n).sheets.length = 64 → (setAt s.sau n).title = some x → x.sheetCount ≤ 64 →
      (∀ roll ordinal flags, (setAt s.sau n).sheets.getD (m.sheet - 1) .empty ≠ .filed k roll ordinal flags) →
      ∃ u t flags, exec .writeBurstServed s = .next t ∧ SetsOff u t ∧ u.fli = s.fli ∧ u.cs = s.cs
        ∧ (setAt u.sau n).sheets = (setAt s.sau n).sheets.set (m.sheet - 1) (.filed k f.roll f.ordinal flags)
        ∧ (setAt u.sau n).title = some x
        ∧ slotAt u.sc k = .held .filed { chip with owner := .set n m.sheet, flags := flags }
        ∧ ((∀ i, i < x.sheetCount → i ≠ m.sheet - 1 → ((setAt s.sau n).sheets.getD i .empty).present = true) →
            (setAt u.sau n).state = .closed ∧ (setAt u.sau n).short = false
              ∧ u.sau.backlog = s.sau.backlog ++ [.set n])
        ∧ (∀ i, i < x.sheetCount → i ≠ m.sheet - 1 → ((setAt s.sau n).sheets.getD i .empty).present = false →
            (setAt u.sau n).state = .held ∧ (setAt u.sau n).short = (setAt s.sau n).short
              ∧ u.sau.backlog = s.sau.backlog))
    ∧ (f.dest = .group → s.sau.group.length = 63 → ∃ u t flags, exec .writeBurstServed s = .next t ∧ SetsOff u t
      ∧ u.fli = s.fli ∧ u.cs = s.cs ∧ flags = { chip.flags with unindexed := true }
      ∧ slotAt u.sc k = .held .filed { chip with owner := .group 64, flags := flags }
      ∧ u.sau = { s.sau with
          group := s.sau.group ++ [{ slot := k, roll := f.roll, ordinal := f.ordinal, flags := flags }]
          groupClosed := true, backlog := s.sau.backlog ++ [.group] }))
  ∧ ∀ (s : State) (f : FrameCtx),
    (∀ n, OldestHeld s.sau (some f.dest) n → s.fli.notices.length < 32 → pressureRelease f s =
      { s with
        sc := { s.sc with askAgain := true }
        sau := (if setCards (setAt s.sau n) = [] then { s.sau with sets := s.sau.sets.set n .blank }
          else { s.sau with
            sets := s.sau.sets.set n { setAt s.sau n with state := .closed, short := true }
            backlog := s.sau.backlog ++ [.set n] })
        fli := { s.fli with
          notices := s.fli.notices ++
            [{ kind := .setForced, roll := f.roll, ordinal := f.ordinal, key := (setAt s.sau n).title.map Title.key
               sheet := lowestMissing (setAt s.sau n), setNo := some n, detail := 2 }] } })
    ∧ ((∀ i, i < s.sau.sets.length → (setAt s.sau i).state = .held → f.dest = .set i) →
      (groupState s.sau = .collecting → f.dest ≠ .group → pressureRelease f s =
        { s with sau := { s.sau with groupClosed := true, backlog := s.sau.backlog ++ [.group] } })
      ∧ (groupState s.sau ≠ .collecting ∨ f.dest = .group →
        (∀ n, currentSet s.sau = some n → setCards (setAt s.sau n) ≠ [] → (∀ o, .spill n o ∉ s.sau.backlog) →
          pressureRelease f s = { s with
            sau := { s.sau with backlog := s.sau.backlog ++ [.spill n ((setAt s.sau n).opening.getD 0)] } })
        ∧ (∀ n o, currentSet s.sau = some n → setCards (setAt s.sau n) = [] ∨ .spill n o ∈ s.sau.backlog →
          pressureRelease f s = s)
        ∧ (currentSet s.sau = none → pressureRelease f s = s)))

/-- R160: RECORDER RESTARTED makes the recorder NOT_READY and raises RECORDER_RESTARTED; with a card in flight, in any state, the
attempt then fails with cause RESTARTED and nothing more of it is sent. -/
def Obligations.RecorderRestartedFails : Prop :=
  ∀ s : State,
    (s.cli.card = none → ∃ t, exec .recorderRestarted s = .next t
      ∧ SetsOff (raiseNotice (plainNotice .recorderRestarted 0)
          { fresh s with cli := { s.cli with ready := false } }) t)
    ∧ (∀ c, s.cli.card = some c → ∃ u t, exec .recorderRestarted s = .next t ∧ SetsOff u t ∧ u.cardOut = []
      ∧ u.cli.ready = false ∧ u.cli.card = none ∧ u.cli.timer = none
      ∧ (c.attempt ≤ retriesOf s c.kind → u.cli.failed = some (c.tray, .restarted)
          ∧ u.cs.retry = some (c.attempt + 1)
          ∧ (s.fli.notices.length < 32 → ∃ x, u.fli.notices = s.fli.notices ++ [x] ∧ x.kind = .recorderRestarted
              ∧ x.detail = c.tray))
      ∧ (retriesOf s c.kind < c.attempt → u.cli.nextTray = nextNumber s.cli.nextTray
          ∧ (s.fli.notices.length < 31 → ∃ x y, u.fli.notices = s.fli.notices ++ [x, y] ∧ x.kind = .recorderRestarted
              ∧ x.detail = c.tray ∧ y.kind = .cardRejected ∧ y.detail = 6 * 65536 + c.tray)))

/-- What a change sets off, one effect at a time until none applies, or at most 128 of them (log entry 35). R142 gives the order
at the end of a job; that every other change follows it too, with a slot after a reservation, and a marker or a release before
a card, is the model's reading (log entry 19). R118: the backlog's head is placed
while an entry is free, a CLOSED set as a SET job, the CLOSED group as its job, a marker at the queue's tail, a spill
request of the OPEN record it names as a SPILL job of its filed sheets (R129). R61, R136: a
pass-through gets its reservation and asks for its slot. R62, R97: a waiting frame gets its slot and is RECEIVING. R143, R163: a
marker at the head is removed, with the next batch number, tray sequence 1 and BATCH_DONE. R95, R96: a release is asked
for when the waiting frame finds no slot FREE, QUEUED or RECORDING, and an event of R96's list has been taken (askAgain, log
entry 30). Which of a marker and a release that fall together
comes first is left open (log entry 4). That a STORE PURGE that waits holds slots and releases back is the model's choice (log
entry 11). -/
def Obligations.WhatFollows : Prop :=
  (∀ s : State,
    (settleStep s = none → settle s = { s with sc := storeAfter s.sc })
    ∧ ∀ v, settleStep s = some v →
        settle s = { settleLoop 127 v with sc := storeAfter (settleLoop 127 v).sc })
  ∧ (∀ (s : State) (rest : List BacklogItem), entryFree s = true →
      (s.sau.backlog = .marker :: rest → ∃ v, settleStep s = some v
        ∧ v = { s with
            sau := { s.sau with backlog := rest }, cs := { s.cs with queue := s.cs.queue ++ [.marker] }
            rs := v.rs }
        ∧ (∀ x, s.rs.intake = .waitTarget x → v.rs = { s.rs with intake := .idle })
        ∧ ((∀ x, s.rs.intake ≠ .waitTarget x) → v.rs = s.rs))
      ∧ (∀ n, s.sau.backlog = .set n :: rest → ∃ v j, settleStep s = some v ∧ SetJobOf s.mu (setAt s.sau n)
            (setAt s.sau n).short j
        ∧ v = { s with
            sau := { s.sau with sets := s.sau.sets.set n .blank, backlog := rest }
            cs := { s.cs with queue := s.cs.queue ++ [.job j], nextId := s.cs.nextId + 1 }
            sc := { s.sc with slots := v.sc.slots, askAgain := true } }
        ∧ SlotsQueued s v j.id (setCards (setAt s.sau n)))
      ∧ (s.sau.backlog = .group :: rest → ∃ (v : State) (j : Job), settleStep s = some v
        ∧ v = { s with
            sau := { s.sau with group := [], groupClosed := false, backlog := rest }
            cs := { s.cs with queue := s.cs.queue ++ [.job j], nextId := s.cs.nextId + 1 }
            sc := { s.sc with slots := v.sc.slots, askAgain := true } }
        ∧ SlotsQueued s v j.id j.cards ∧ j.kind = .unindexedGroup ∧ j.cls = 0 ∧ j.key = none ∧ j.sheetCount = none
        ∧ j.copies = (classAt s.mu 0).copies ∧ j.retries = (classAt s.mu 0).retries ∧ j.short = false
        ∧ j.spill = false ∧ j.nextPos = 0 ∧ j.nextCopy = 1 ∧ j.cards.length = s.sau.group.length
        ∧ ∀ (i : Nat) (g : GroupFrame), s.sau.group[i]? = some g →
            j.cards[i]? = some { slot := g.slot, sheet := i + 1, roll := g.roll, ordinal := g.ordinal })
      ∧ (∀ n o, s.sau.backlog = .spill n o :: rest →
        (¬ ((setAt s.sau n).state = .opened ∧ (setAt s.sau n).opening = some o ∧ setCards (setAt s.sau n) ≠ []) →
          settleStep s = some { s with sau := { s.sau with backlog := rest } })
        ∧ ((setAt s.sau n).state = .opened → (setAt s.sau n).opening = some o → setCards (setAt s.sau n) ≠ [] →
          ∃ (v : State) (j : Job), settleStep s = some v
          ∧ v = { s with
              sau := { s.sau with
                backlog := rest
                sets := s.sau.sets.set n { setAt s.sau n with
                  spill := true, sheets := (setAt s.sau n).sheets.map SheetPos.spillOut } }
              cs := { s.cs with queue := s.cs.queue ++ [.job j], nextId := s.cs.nextId + 1 }
              sc := { s.sc with slots := v.sc.slots } }
          ∧ SlotsQueued s v j.id (setCards (setAt s.sau n)) ∧ j.kind = .partialSet ∧ j.spill = true ∧ j.short = false
          ∧ j.key = (setAt s.sau n).title.map Title.key ∧ j.sheetCount = (setAt s.sau n).title.map Title.sheetCount
          ∧ j.cls = ((setAt s.sau n).title.map Title.cls).getD 0 ∧ j.cards = setCards (setAt s.sau n)
          ∧ j.copies = (classAt s.mu j.cls).copies ∧ j.retries = (classAt s.mu j.cls).retries ∧ j.nextPos = 0
          ∧ j.nextCopy = 1)))
  ∧ (∀ (s : State) (f : FrameCtx),
      (s.rs.intake = .waitReservation f → s.sau.backlog = [] → entryFree s = true → settleStep s = some
        { s with
          cs := { s.cs with queue := s.cs.queue ++ [.reservation] }, rs := { s.rs with intake := .waitSlot f }
          sc := { s.sc with askAgain := true } })
      ∧ (∀ n g, s.rs.intake = .waitSlot f → s.sau.backlog = [] ∨ entryFree s = false → s.mu.purgeTag = none →
          s.rs.geometry = some g → chooseSlot s.sc (cardSlot s) = some n → settleStep s = some
            { s with
              rs := { s.rs with intake := .receiving { f with slot := some n } }
              sc := { s.sc with slots := s.sc.slots.set n (.held .filling
                { owner := .openFrame, roll := f.roll, ordinal := f.ordinal, depth := f.depth, re := g.re
                  flags := f.flags }) } }))
  ∧ (∀ (s : State) (q : List Entry), CardsNext s → s.cs.queue = .marker :: q → s.cli.card = none →
      s.sc.mode ≠ .retaining → s.fli.notices.length < 32 → ∀ v,
      v = { s with
          cs := { s.cs with queue := q }
          cli := { s.cli with batch := (if s.cli.batch = 65535 then 1 else s.cli.batch + 1), nextTray := 1 }
          fli := { s.fli with notices := s.fli.notices ++ [plainNotice .batchDone s.cli.batch] }
          sc := { s.sc with askAgain := true } } →
      (NoRelease s → settleStep s = some v)
        ∧ (∀ f, s.rs.intake = .waitSlot f → s.mu.purgeTag = none → s.sc.askAgain = true → cardPathHolds s.sc = false →
            settleStep s = some { v with freeCount := s.freeCount + 1 }
              ∨ settleStep s = some
                (pressureRelease f { s with freeCount := s.freeCount + 1, sc := { s.sc with askAgain := false } })))
  ∧ ∀ (s : State) (f : FrameCtx), CardsNext s → s.rs.intake = .waitSlot f → s.mu.purgeTag = none →
      s.sc.askAgain = true → cardPathHolds s.sc = false → markerReady s = false →
      settleStep s = some (pressureRelease f { s with sc := { s.sc with askAgain := false } })

/-! ### Setup, status and resets -/

/-- R87, R89, R164: MONITOR SETUP refuses a bad field and otherwise replaces the three thresholds and the enable together, the
state standing; turning the enable on while THIN raises DENSITY_WARN from the last evaluation. RECORDER SETUP stores both
values or, with either out of range, refuses BAD_FIELD; a running timer keeps its expiry. -/
def Obligations.SetupRecords : Prop :=
  (∀ (s : State) (tag enable : Byte) (floor enter leave : Nat),
    mgmtHead s = some (tag, .monitorSetup floor enter leave enable) →
    (¬ (floor < enter ∧ enter < leave ∧ leave ≤ 255) ∨ (enable ≠ 0 ∧ enable ≠ 1) → ∃ t, exec .monitorSetup s = .next t
      ∧ EndOfCommand (answeredBy tag 0x4B (.refused .badField) s) t)
    ∧ (floor < enter → enter < leave → leave ≤ 255 → (enable = 0 ∨ enable = 1) →
        ∀ dm, dm = { s.dm with floor := floor, enter := enter, leave := leave, enable := enable == 1 } →
        ∀ r, r = ReplyResult.ok (.monitor floor enter leave (enable == 1) s.dm.state) →
          (∀ e, s.dm.enable = false → enable = 1 → s.dm.state = .thin → s.dm.last = some e →
            ∃ t, exec .monitorSetup s = .next t
              ∧ EndOfCommand (placeReply tag 0x4B r (raiseNotice
                  { plainNotice .densityWarn e.db with roll := e.roll, ordinal := e.ordinal }
                  { taken s with dm := dm })) t)
          ∧ (s.dm.enable = true ∨ enable = 0 ∨ s.dm.state = .normal → ∃ t, exec .monitorSetup s = .next t
            ∧ EndOfCommand { answeredBy tag 0x4B r s with dm := dm } t)))
  ∧ ∀ (s : State) (tag : Byte) (pr timeout : Nat), mgmtHead s = some (tag, .recorderSetup pr timeout) →
    ((50 ≤ pr ∧ pr ≤ 200 ∧ 250 ≤ timeout ∧ timeout ≤ 8000) → ∃ t, exec .recorderSetup s = .next t
      ∧ EndOfCommand
          { answeredBy tag 0x4C (.ok (.recorder pr timeout)) s with
            cli := { s.cli with pr := pr, timeout := timeout } } t)
    ∧ (¬ (50 ≤ pr ∧ pr ≤ 200 ∧ 250 ≤ timeout ∧ timeout ≤ 8000) → ∃ t, exec .recorderSetup s = .next t
      ∧ EndOfCommand (answeredBy tag 0x4C (.refused .badField) s) t)

/-- R174, R113, R175, R180: STATUS READ replies with every item of Table 10-4 as it stands and changes no state except the reply
buffer; STATUS CLEAR clears the flags named and replies with those that stand; an unknown management kind is refused and
changes nothing. -/
def Obligations.StatusRecords : Prop :=
  (∀ (s : State) (tag : Byte), mgmtHead s = some (tag, .statusRead) → ∃ r t, exec .statusRead s = .next t
    ∧ EndOfCommand (answeredBy tag 0x4D (.ok (.status r)) s) t
    ∧ r.intake = (match s.rs.intake with
        | .idle => .idle
        | .receiving _ => .receiving
        | .discarding .. => .discarding
        | .waitSlot _ => .waitSlot
        | .waitReservation _ => .waitReservation
        | .waitTarget _ => .waitTarget)
    ∧ r.mode = s.sc.mode ∧ r.deferral = s.sc.deferral
    ∧ r.free = s.sc.slots.countP (fun x => x == .free) ∧ r.offline = s.sc.slots.countP (fun x => x == .offline)
    ∧ r.filling = s.sc.slots.countP (Slot.inState .filling) ∧ r.filed = s.sc.slots.countP (Slot.inState .filed)
    ∧ r.queued = s.sc.slots.countP (Slot.inState .queued) ∧ r.recording = s.sc.slots.countP (Slot.inState .recording)
    ∧ r.sets.length = s.sau.sets.length
    ∧ (∀ (i : Nat) (x : SetRecord), s.sau.sets[i]? = some x → ∃ e : SetStatus, r.sets[i]? = some e
        ∧ e.state = x.state ∧ e.key = x.title.map Title.key ∧ e.sheetCount = x.title.map Title.sheetCount
        ∧ e.retakes = x.retakes ∧ e.present = (x.sheets.take ((x.title.map Title.sheetCount).getD 0)).countP SheetPos.present)
    ∧ (∀ n, r.current = some n → (setAt s.sau n).state = .opened
        ∧ ∀ i, i < n → (setAt s.sau i).state ≠ .opened)
    ∧ (r.current = none → ∀ x, x ∈ s.sau.sets → x.state ≠ .opened)
    ∧ r.passMode = s.sau.passMode
    ∧ (s.sau.group = [] → r.group = .empty)
    ∧ (s.sau.group ≠ [] → r.group = if s.sau.groupClosed then .closed else .collecting)
    ∧ r.groupFrames = s.sau.group.length ∧ r.backlog = s.sau.backlog.length
    ∧ r.entries = s.cs.queue.length ∧ r.jobs = s.cs.queue.countP Entry.isAnyJob
    ∧ r.markers = s.cs.queue.countP (fun e => e == .marker)
    ∧ r.card = s.cli.card.map (fun c => (c.tray, c.attempt)) ∧ r.ready = s.cli.ready ∧ r.batch = s.cli.batch
    ∧ r.nextTray = s.cli.nextTray ∧ r.density = s.dm.state ∧ r.sticky = s.mu.sticky
    ∧ r.lastReset = s.mu.lastReset ∧ r.serial1 = s.mu.serial1 ∧ r.serial2 = s.mu.serial2 ∧ r.station = s.mu.station)
  ∧ (∀ (s : State) (tag mask : Byte), mgmtHead s = some (tag, .statusClear mask) → ∃ f t,
      exec .statusClear s = .next t
      ∧ EndOfCommand { answeredBy tag 0x4E (.ok (.flags f)) s with mu := { s.mu with sticky := f } } t
      ∧ f.noticesLost = (s.mu.sticky.noticesLost && !mask.getLsbD 0)
      ∧ f.overrun = (s.mu.sticky.overrun && !mask.getLsbD 1)
      ∧ f.linkLostSeen = (s.mu.sticky.linkLostSeen && !mask.getLsbD 2)
      ∧ f.storeLost = (s.mu.sticky.storeLost && !mask.getLsbD 3)
      ∧ f.configDefaulted = (s.mu.sticky.configDefaulted && !mask.getLsbD 4))
  ∧ ∀ (s : State) (tag code : Byte), mgmtHead s = some (tag, .unknown code) → ∃ t, exec .unknownKind s = .next t
      ∧ EndOfCommand (answeredBy tag code (.refused .unknownKind) s) t

/-- R176, R5, R79, R81, R93, R133, R147, R165: what LINK RESET leaves as it is taken: CARD ABANDON for a card in flight, the
staging list, intake, SAU, CS and CLI in their reset condition, every chip's slot given back, and tables, setup, flags, FIFO and
replies kept. A waiting burst is dropped; an active one is left to end, its dots or its row lost, and marked to give its slot,
which stands until then, back (WriteBurstServed and StorePurgeClears say how it ends; log entry 14). A refresh that is running
goes on (what its end takes from the count: log entry 39), and a forced one that is pending is run. No reply is placed yet. That the abort of an open frame raises no
notice is the model's choice (log entry 37). The deferral count is stated with no refresh forced (log entry 21). -/
def Obligations.LinkResetStarts : Prop :=
  ∀ (s : State) (tag : Byte), mgmtHead s = some (tag, .linkReset) → ∃ u t, exec .linkReset s = .next t
    ∧ EndOfCommand u t
    ∧ u.mu = { s.mu with staging := [], resetTag := some tag } ∧ u.fli = takeHead s.fli
    ∧ u.dm = { s.dm with state := .normal, last := none }
    ∧ u.rs = { intake := .idle, work := .none, tone := none, geometry := none } ∧ u.sau = .blank ∧ u.cs = .blank
    ∧ u.cli = { s.cli with
        ready := false, card := none, timer := none, failed := none, batch := 1, nextTray := 1 }
    ∧ u.cardOut = (match s.cli.card with
        | some c => [cardAbandonRecord c.tray]
        | none => [])
    ∧ u.sc.banks = s.sc.banks ∧ u.sc.interval = s.sc.interval ∧ u.sc.cfgBanks = s.sc.cfgBanks
    ∧ u.sc.cfgInterval = s.sc.cfgInterval ∧ u.sc.timer = s.sc.timer ∧ u.sc.dram = s.sc.dram
    ∧ u.sc.turns = [.read, .read, .read, .read]
    ∧ (s.sc.forced = none → u.sc.deferral = 0)
    ∧ (s.sc.mode = .active → u.sc.mode = .active) ∧ (s.sc.mode ≠ .active → u.sc.mode = .waking)
    ∧ (∀ n st c, n < s.sc.slots.length → slotAt s.sc n = .held st c → slotBusy s.sc n = false →
        bankOf n < s.sc.banks → slotAt u.sc n = .free)
    ∧ (∀ n st c, n < s.sc.slots.length → slotAt s.sc n = .held st c → slotBusy s.sc n = true →
        slotAt u.sc n = .held st c)
    ∧ (∀ n, n < s.sc.slots.length → slotAt s.sc n = .offline → slotAt u.sc n = .offline)
    ∧ (∀ w, s.sc.write = some w → w.active = true → u.sc.write = some { w with aborted := true })
    ∧ ((∀ w, s.sc.write = some w → w.active = false) → u.sc.write = none)
    ∧ (∀ r, s.sc.read = some r → r.active = true → u.sc.read = some { r with discard := true, release := true })
    ∧ ((∀ r, s.sc.read = some r → r.active = false) → u.sc.read = none)
    ∧ (∀ k, s.sc.refresh = some k → u.sc.refresh = some k)
    ∧ (∀ owed, s.sc.forced = some owed → 0 < s.sc.deferral ∨ 0 < owed →
        u.sc.forced = some owed ∧ u.sc.deferral = s.sc.deferral
          ∧ (s.sc.refresh = none → burstActive s.sc = false →
            u.sc.refresh = some (if 0 < s.sc.deferral then .deferred else .owed)))

/-- R176: LINK RESET is complete when the store's part has ended: the last reset kind is LINK, the notice queue is empty, and the
reply OK is placed; before that LINK_RESET_COMPLETE has no effect. That the store's part has ended exactly when no burst is
waiting or active, no refresh is running or forced and the store is ACTIVE is the model's reading of R93 and R176 (log
entry 20). R54, R172: a notice whose sending has not ended is discarded with the queue; no record of it leaves, and the channel,
with the link UP, is sending a reply next. That the sending ends at that moment is inferred (log entry 9). -/
def Obligations.LinkResetCompletes : Prop :=
  ∀ (s : State) (tag : Byte), s.mu.resetTag = some tag →
    (s.sc.write = none → s.sc.read = none → s.sc.refresh = none → s.sc.forced = none → s.sc.mode = .active →
      ∃ u t, exec .linkResetComplete s = .next t ∧ EndOfCommand u t
        ∧ u.mu = { s.mu with lastReset := .link, resetTag := none } ∧ u.fli.notices = []
        ∧ u.fli.replies = s.fli.replies ++ [{ tag := tag, code := 0x4F, result := .ok .none }]
        ∧ u.fli.fifo = s.fli.fifo ∧ u.rs = s.rs ∧ u.sc = s.sc ∧ u.sau = s.sau ∧ u.cs = s.cs ∧ u.cli = s.cli
        ∧ u.dm = s.dm
        ∧ u.fli = { s.fli with
            notices := [], replies := u.fli.replies, sending := if s.fli.sending = some .reply then some .reply else none }
        ∧ t.fli.notices = [] ∧ (∀ x, .record x ∉ t.returnOut) ∧ (s.fli.link = .up → t.fli.sending = some .reply))
    ∧ (s.sc.write ≠ none ∨ s.sc.read ≠ none ∨ s.sc.refresh ≠ none ∨ s.sc.forced ≠ none ∨ s.sc.mode ≠ .active →
      exec .linkResetComplete s = .next (fresh s))
end

