-- ==== Sys2Proof/Laws/Ops.lean ====
section
/-! SUPPORT. What the shared operations can do, each said once: notices, replies, the return channel, the Store
Controller's operations on the DRAM, jobs, sets and cards, and everything that follows by itself from a change. -/

namespace Sys2Proof.Machine

/-! ### Notices -/

/-- A notice joins the queue, or sets NOTICES_LOST, and does nothing else (R172). -/
theorem raiseNotice_cases (n : Notice) (s : State) :
    (s.fli.notices.length < Config.noticePlaces
        ∧ raiseNotice n s = { s with fli := { s.fli with notices := s.fli.notices ++ [n] } })
      ∨ (Config.noticePlaces ≤ s.fli.notices.length
        ∧ raiseNotice n s = { s with mu := { s.mu with sticky := { s.mu.sticky with noticesLost := true } } }) := by
  unfold raiseNotice
  split
  · exact .inl ⟨‹_›, rfl⟩
  · exact .inr ⟨by omega, rfl⟩

section RaiseNotice
variable (n : Notice) (s : State)

@[simp] theorem raiseNotice_pending : (raiseNotice n s).pending = s.pending := by unfold raiseNotice; split <;> rfl
@[simp] theorem raiseNotice_dm : (raiseNotice n s).dm = s.dm := by unfold raiseNotice; split <;> rfl
@[simp] theorem raiseNotice_rs : (raiseNotice n s).rs = s.rs := by unfold raiseNotice; split <;> rfl
@[simp] theorem raiseNotice_sc : (raiseNotice n s).sc = s.sc := by unfold raiseNotice; split <;> rfl
@[simp] theorem raiseNotice_sau : (raiseNotice n s).sau = s.sau := by unfold raiseNotice; split <;> rfl
@[simp] theorem raiseNotice_cs : (raiseNotice n s).cs = s.cs := by unfold raiseNotice; split <;> rfl
@[simp] theorem raiseNotice_cli : (raiseNotice n s).cli = s.cli := by unfold raiseNotice; split <;> rfl
@[simp] theorem raiseNotice_cardOut : (raiseNotice n s).cardOut = s.cardOut := by unfold raiseNotice; split <;> rfl
@[simp] theorem raiseNotice_returnOut : (raiseNotice n s).returnOut = s.returnOut := by
  unfold raiseNotice; split <;> rfl
@[simp] theorem raiseNotice_freeCount : (raiseNotice n s).freeCount = s.freeCount := by
  unfold raiseNotice; split <;> rfl
@[simp] theorem raiseNotice_muBody : (raiseNotice n s).mu.body = s.mu.body := by unfold raiseNotice; split <;> rfl
@[simp] theorem raiseNotice_link : (raiseNotice n s).fli.link = s.fli.link := by unfold raiseNotice; split <;> rfl
@[simp] theorem raiseNotice_fifo : (raiseNotice n s).fli.fifo = s.fli.fifo := by unfold raiseNotice; split <;> rfl
@[simp] theorem raiseNotice_headMarks : (raiseNotice n s).fli.headMarks = s.fli.headMarks := by
  unfold raiseNotice; split <;> rfl
@[simp] theorem raiseNotice_holdFifo : (raiseNotice n s).fli.holdFifo = s.fli.holdFifo := by
  unfold raiseNotice; split <;> rfl
@[simp] theorem raiseNotice_replies : (raiseNotice n s).fli.replies = s.fli.replies := by
  unfold raiseNotice; split <;> rfl
@[simp] theorem raiseNotice_holdTold : (raiseNotice n s).fli.holdTold = s.fli.holdTold := by
  unfold raiseNotice; split <;> rfl
@[simp] theorem raiseNotice_sending : (raiseNotice n s).fli.sending = s.fli.sending := by
  unfold raiseNotice; split <;> rfl

end RaiseNotice

/-! ### The same core -/

/-- What no effect that follows from a change touches: the core, and what the return channel has told and is sending. -/
structure SameLink (u t : State) : Prop where
  pending   : t.pending = u.pending
  mu        : t.mu.body = u.mu.body
  dm        : t.dm = u.dm
  dram      : t.sc.dram = u.sc.dram
  link      : t.fli.link = u.fli.link
  fifo      : t.fli.fifo = u.fli.fifo
  headMarks : t.fli.headMarks = u.fli.headMarks
  holdFifo  : t.fli.holdFifo = u.fli.holdFifo
  replies   : t.fli.replies = u.fli.replies
  holdTold  : t.fli.holdTold = u.fli.holdTold
  sending   : t.fli.sending = u.fli.sending
  returnOut : t.returnOut = u.returnOut

theorem SameLink.core {u t : State} (h : SameLink u t) : SameCore u t :=
  ⟨h.pending, h.mu, h.dm, h.dram, h.link, h.fifo, h.headMarks, h.holdFifo, h.replies⟩

theorem SameLink.refl (s : State) : SameLink s s := by constructor <;> rfl

theorem SameLink.trans {s t u : State} (h : SameLink s t) (g : SameLink t u) : SameLink s u := by
  constructor
  · exact g.pending.trans h.pending
  · exact g.mu.trans h.mu
  · exact g.dm.trans h.dm
  · exact g.dram.trans h.dram
  · exact g.link.trans h.link
  · exact g.fifo.trans h.fifo
  · exact g.headMarks.trans h.headMarks
  · exact g.holdFifo.trans h.holdFifo
  · exact g.replies.trans h.replies
  · exact g.holdTold.trans h.holdTold
  · exact g.sending.trans h.sending
  · exact g.returnOut.trans h.returnOut

theorem SameCore.trans {s t u : State} (h : SameCore s t) (g : SameCore t u) : SameCore s u :=
  ⟨g.pending.trans h.pending, g.mu.trans h.mu, g.dm.trans h.dm, g.dram.trans h.dram, g.link.trans h.link,
    g.fifo.trans h.fifo, g.headMarks.trans h.headMarks, g.holdFifo.trans h.holdFifo, g.replies.trans h.replies⟩

theorem sameLink_raiseNotice (n : Notice) (s : State) : SameLink s (raiseNotice n s) := by constructor <;> simp

/-! ### Slots when banks change and at a purge -/

/-- R90, R111: a slot after the enabled banks change: a chip stays, any other slot is FREE or OFFLINE by its bank. -/
theorem applyBanks_slotAt (n : Nat) (sc : Sc) (i : Nat) (hi : i < sc.slots.length) :
    slotAt (applyBanks n sc) i = match slotAt sc i with
      | .held st c => .held st c
      | .free | .offline => if bankOf i < n then .free else .offline := by
  simp only [slotAt, applyBanks, List.getD_eq_getElem?_getD, List.getElem?_map, List.getElem?_zipIdx,
    List.getElem?_eq_getElem hi, Option.map_some, Option.getD_some, Nat.zero_add]
  cases sc.slots[i] <;> rfl

/-- R112 step 1: a slot after the purge: freed if FILED or QUEUED, but for the one a read burst that is left works on. -/
theorem purgeSlots_slotAt (sc : Sc) (i : Nat) (hi : i < sc.slots.length) :
    slotAt (purgeSlots sc) i =
      if (slotAt sc i).purgeable && !readLeftOn sc i then (if bankOf i < sc.banks then .free else .offline)
      else match slotAt sc i with
        | .held st c => .held st c
        | .free | .offline => if bankOf i < sc.banks then .free else .offline := by
  unfold purgeSlots
  rw [applyBanks_slotAt _ _ _ (by simpa using hi)]
  simp only [slotAt, List.getD_eq_getElem?_getD, List.getElem?_map, List.getElem?_zipIdx,
    List.getElem?_eq_getElem hi, Option.map_some, Option.getD_some, Nat.zero_add]
  by_cases h : sc.slots[i].purgeable && !readLeftOn sc i <;> simp [h]

/-! ### The Store Controller leaves the DRAM -/

@[simp] theorem setSlot_dram (n : Nat) (v : Slot) (sc : Sc) : (setSlot n v sc).dram = sc.dram := rfl
@[simp] theorem freeSlot_dram (n : Nat) (sc : Sc) : (freeSlot n sc).dram = sc.dram := rfl
@[simp] theorem moveSlot_dram (n : Nat) (a b : ChipState) (f : Chip → Chip) (sc : Sc) :
    (moveSlot n a b f sc).dram = sc.dram := by
  unfold moveSlot; split <;> (try split) <;> rfl
@[simp] theorem changeChip_dram (n : Nat) (f : Chip → Chip) (sc : Sc) : (changeChip n f sc).dram = sc.dram := by
  unfold changeChip; split <;> rfl
@[simp] theorem releaseSlot_dram (n : Nat) (k : ChipState) (sc : Sc) : (releaseSlot n k sc).dram = sc.dram := by
  unfold releaseSlot; split <;> rfl
@[simp] theorem applyBanks_dram (n : Nat) (sc : Sc) : (applyBanks n sc).dram = sc.dram := rfl
@[simp] theorem openSlot_dram (k : CardKind) (sc : Sc) : (openSlot k sc).dram = sc.dram := by
  unfold openSlot; split <;> simp
@[simp] theorem queueSlots_dram (id pos : Nat) (cs : List CardPos) (sc : Sc) :
    (queueSlots id pos cs sc).dram = sc.dram := by
  induction cs generalizing pos sc with
  | nil => rfl
  | cons c cs ih => simp [queueSlots, ih]
@[simp] theorem askRead_dram (slot row : Nat) (sc : Sc) : (askRead slot row sc).dram = sc.dram := rfl
@[simp] theorem askWrite_dram (b : WriteBurst) (sc : Sc) : (askWrite b sc).dram = sc.dram := rfl
@[simp] theorem grantBursts_dram (sc : Sc) : (grantBursts sc).dram = sc.dram := by
  unfold grantBursts
  repeat' split
  all_goals rfl
@[simp] theorem storeIdle_dram (sc : Sc) : (storeIdle sc).dram = sc.dram := by
  unfold storeIdle
  repeat' split
  all_goals simp
@[simp] theorem storeSettle_dram (sc : Sc) : (storeSettle sc).dram = sc.dram := by
  unfold storeSettle
  repeat' split
  all_goals simp
@[simp] theorem storeAfter_dram (sc : Sc) : (storeAfter sc).dram = sc.dram := by simp [storeAfter]

/-! ### Sets, jobs and cards leave the core -/

theorem sameLink_joinBacklog (x : BacklogItem) (s : State) : SameLink s (joinBacklog x s) := by constructor <;> simp
theorem sameLink_changeSet (n : Nat) (r : SetRecord) (s : State) : SameLink s (changeSet n r s) := by
  constructor <;> simp
theorem sameLink_emptySet (n : Nat) (s : State) : SameLink s (emptySet n s) := sameLink_changeSet ..

theorem sameLink_closeSet (n : Nat) (b : Bool) (s : State) : SameLink s (closeSet n b s) := by
  unfold closeSet
  simp only
  split
  · exact sameLink_emptySet n s
  · exact (sameLink_changeSet ..).trans (sameLink_joinBacklog ..)

theorem sameLink_closeGroup (s : State) : SameLink s (closeGroup s) := by
  unfold closeGroup; constructor <;> simp

theorem sameLink_placeJob (j : Job) (s : State) : SameLink s (placeJob j s) := by
  unfold placeJob; constructor <;> simp

theorem sameLink_placeSet (n : Nat) (s : State) : SameLink s (placeSet n s) := by
  unfold placeSet; exact (sameLink_placeJob ..).trans (sameLink_emptySet ..)

theorem sameLink_placeGroup (s : State) : SameLink s (placeGroup s) := by
  have h := sameLink_placeJob (formJob s .unindexedGroup 0 none none (groupCards 1 s.sau.group) false false) s
  unfold placeGroup
  exact h.trans (by constructor <;> rfl)

theorem sameLink_placeSpill (n o : Nat) (s : State) : SameLink s (placeSpill n o s) := by
  unfold placeSpill
  simp only
  split
  · have h := sameLink_placeJob (formJob s .partialSet (((setAt s.sau n).title.map Title.cls).getD 0)
      ((setAt s.sau n).title.map Title.key) ((setAt s.sau n).title.map Title.sheetCount) (setCards (setAt s.sau n))
      false true) s
    exact h.trans (by constructor <;> rfl)
  · exact .refl s

theorem sameLink_placeMarker (s : State) : SameLink s (placeMarker s) := by
  unfold placeMarker
  simp only
  split <;> constructor <;> simp

theorem sameLink_placeItem (x : BacklogItem) (s : State) : SameLink s (placeItem x s) := by
  unfold placeItem
  split
  · exact sameLink_placeSet ..
  · exact sameLink_placeGroup ..
  · exact sameLink_placeSpill ..
  · exact sameLink_placeMarker ..

theorem sameLink_placeHead (s : State) : SameLink s (placeHead s) := by
  unfold placeHead
  split
  · exact .refl s
  · rename_i x xs _
    exact ((by constructor <;> rfl) :
      SameLink s { s with sau := { s.sau with backlog := xs } }).trans (sameLink_placeItem ..)

theorem sameLink_serveBacklog (n : Nat) (s : State) : SameLink s (serveBacklog n s) := by
  induction n generalizing s with
  | zero => exact .refl s
  | succ n ih =>
    unfold serveBacklog
    split
    · exact (sameLink_placeHead s).trans (ih _)
    · exact .refl s

theorem sameLink_drainBacklog (s : State) : SameLink s (drainBacklog s) := sameLink_serveBacklog ..

theorem sameLink_forceOut (n roll ordinal d : Nat) (s : State) : SameLink s (forceOut n roll ordinal d s) := by
  unfold forceOut; exact (sameLink_closeSet ..).trans (sameLink_raiseNotice ..)

theorem sameLink_requestSpill (s : State) : SameLink s (requestSpill s) := by
  unfold requestSpill
  split
  · exact .refl s
  · simp only
    split
    · exact sameLink_joinBacklog ..
    · exact .refl s

theorem sameLink_pressureRelease (f : FrameCtx) (s : State) : SameLink s (pressureRelease f s) := by
  unfold pressureRelease
  repeat' split
  all_goals first | exact sameLink_forceOut .. | exact sameLink_closeGroup .. | exact sameLink_requestSpill ..

theorem sameLink_askRelease (f : FrameCtx) (s : State) : SameLink s (askRelease f s) := by
  unfold askRelease
  exact ((by constructor <;> rfl) :
    SameLink s { s with sc := { s.sc with askAgain := false } }).trans (sameLink_pressureRelease ..)

theorem sameLink_removeMarker (s : State) : SameLink s (removeMarker s) := by
  unfold removeMarker
  constructor <;> simp

theorem sameLink_markerOrRelease (f : FrameCtx) (s : State) : SameLink s (markerOrRelease f s) := by
  unfold markerOrRelease
  have h : SameLink s { s with freeCount := s.freeCount + 1 } := by constructor <;> rfl
  simp only
  split
  · exact h.trans (sameLink_removeMarker ..)
  · exact h.trans (sameLink_askRelease ..)

theorem sameLink_closeCard (c : Card) (s : State) : SameLink s (closeCard c s) := by
  unfold closeCard; constructor <;> simp

theorem sameLink_nextStep (c : Card) (n : Nat) (s : State) : SameLink s (nextStep c n s) := by
  unfold nextStep
  repeat' split
  · exact sameLink_closeCard ..
  · constructor <;> simp
  · exact .refl s

theorem sameLink_pumpChip (c : Card) (n : Nat) (s : State) : SameLink s (pumpChip c n s) := by
  unfold pumpChip
  split
  · refine SameLink.trans ?_ (sameLink_nextStep ..)
    unfold sendLine; constructor <;> simp
  · exact sameLink_nextStep ..

theorem sameLink_pump (s : State) : SameLink s (pump s) := by
  unfold pump
  repeat' split
  all_goals first | exact .refl s | exact sameLink_pumpChip .. | exact sameLink_closeCard ..

theorem sameLink_openCard (k : CardKind) (a : Nat) (s : State) : SameLink s (openCard k a s) := by
  unfold openCard
  refine SameLink.trans ?_ (sameLink_pump _)
  constructor <;> simp

/-- The choice of a card changes the CS only (R138). -/
theorem chooseCard_cs {s t : State} {k : CardKind} {a : Nat} (h : chooseCard s = some (t, k, a)) :
    ∃ cs, t = { s with cs := cs } := by
  unfold chooseCard at h
  repeat' split at h
  all_goals simp only [Option.map_eq_some_iff, Option.some.injEq, Prod.mk.injEq, reduceCtorEq] at h
  all_goals first
    | (obtain ⟨_, _, h, _⟩ := h; subst h; exact ⟨_, rfl⟩)
    | (obtain ⟨h, _⟩ := h; subst h; exact ⟨_, rfl⟩)

theorem sameLink_grantReservation (f : FrameCtx) (s : State) : SameLink s (grantReservation f s) := by
  unfold grantReservation; constructor <;> simp

theorem sameLink_grantSlot (f : FrameCtx) (n : Nat) (s : State) : SameLink s (grantSlot f n s) := by
  constructor <;> simp

theorem sameLink_settleCards {s t : State} (h : settleCards s = some t) : SameLink s t := by
  unfold settleCards at h
  split at h
  · cases h; exact sameLink_markerOrRelease ..
  · cases h; exact sameLink_removeMarker ..
  · cases h; exact sameLink_askRelease ..
  · simp only [boundaryCard, Option.map_eq_some_iff] at h
    obtain ⟨c, hc, rfl⟩ := h
    split at hc
    · obtain ⟨u, k, a⟩ := c
      obtain ⟨cs, rfl⟩ := chooseCard_cs hc
      exact ((by constructor <;> rfl) : SameLink s { s with cs := cs }).trans (sameLink_openCard ..)
    · cases hc

/-! ### What follows by itself -/

/-- What one effect that follows can be, its condition included (R142). -/
theorem settleStep_cases {s t : State} (h : settleStep s = some t) :
    (s.sau.backlog ≠ [] ∧ entryFree s = true ∧ t = placeHead s)
      ∨ (∃ f, reservationGrant s = some f ∧ t = grantReservation f s)
      ∨ (∃ f n, slotGrant s = some (f, n) ∧ t = grantSlot f n s)
      ∨ settleCards s = some t := by
  unfold settleStep at h
  split at h
  · rename_i hb; cases h; exact .inl ⟨hb.1, hb.2, rfl⟩
  · split at h
    · rename_i f hf; cases h; exact .inr (.inl ⟨f, hf, rfl⟩)
    · split at h
      · rename_i f n hf; cases h; exact .inr (.inr (.inl ⟨f, n, hf, rfl⟩))
      · exact .inr (.inr (.inr h))

theorem sameLink_settleStep {s t : State} (h : settleStep s = some t) : SameLink s t := by
  rcases settleStep_cases h with ⟨_, _, rfl⟩ | ⟨f, _, rfl⟩ | ⟨f, n, _, rfl⟩ | h
  · exact sameLink_placeHead s
  · exact sameLink_grantReservation f s
  · exact sameLink_grantSlot f n s
  · exact sameLink_settleCards h

/-- A property that every single effect keeps is kept by all that follow. -/
theorem settleLoop_keeps {P : State → Prop} (hP : ∀ s t, P s → settleStep s = some t → P t) (n : Nat) {s : State}
    (h : P s) : P (settleLoop n s) := by
  induction n generalizing s with
  | zero => exact h
  | succ n ih =>
    unfold settleLoop
    split
    · rename_i t ht; exact ih (hP s t h ht)
    · exact h

/-- A property that every single effect and the SC's own going on keep is kept by everything that follows. -/
theorem settle_keeps {P : State → Prop} (hP : ∀ s t, P s → settleStep s = some t → P t)
    (hS : ∀ s, P s → P { s with sc := storeAfter s.sc }) {s : State} (h : P s) : P (settle s) :=
  hS _ (settleLoop_keeps hP settleFuel h)

theorem sameLink_settle (s : State) : SameLink s (settle s) := by
  refine settle_keeps (P := SameLink s) (fun t u h hu => h.trans (sameLink_settleStep hu)) (fun t h => h.trans ?_)
    (.refl s)
  constructor <;> simp

/-- With nothing to follow, only the SC's bursts and refreshes go on. -/
theorem settle_quiet {s : State} (h : settleStep s = none) : settle s = { s with sc := storeAfter s.sc } := by
  have : settleLoop settleFuel s = s := by
    show settleLoop (127 + 1) s = s
    unfold settleLoop
    rw [h]
  unfold settle
  rw [this]

/-! ### The end of a command -/

theorem sameLink_beginWake (s : State) : SameLink s (beginWake s) := by
  unfold beginWake
  exact ((by constructor <;> rfl) :
    SameLink s { s with sc := { s.sc with mode := .waking } }).trans (sameLink_settle _)

theorem sameLink_meetHeader (s : State) : SameLink s (meetHeader s) := by
  unfold meetHeader
  split
  · exact sameLink_beginWake s
  · exact .refl s

/-- What the return channel can do: send a symbol and start an item (R169, R173). -/
theorem channel_frame (s : State) :
    channel s = { s with fli := (channel s).fli, returnOut := (channel s).returnOut }
      ∧ (channel s).fli.body = s.fli.body := by
  unfold channel arbitrate sendSymbol
  repeat' split
  all_goals exact ⟨rfl, rfl⟩

theorem sameCore_channel (s : State) : SameCore s (channel s) := by
  unfold channel arbitrate sendSymbol
  repeat' split
  all_goals constructor <;> rfl

theorem sameCore_finish (s : State) : SameCore s (finish s) := (sameLink_meetHeader s).core.trans (sameCore_channel _)

theorem channel_mode (s : State) : (channel s).sc = s.sc := by rw [(channel_frame s).1]
theorem channel_rs (s : State) : (channel s).rs = s.rs := by rw [(channel_frame s).1]

/-- The intake waits for nothing, and no effect that follows changes it. -/
theorem settleStep_rs {s t : State} (hw : s.rs.intake.waiting = false) (h : settleStep s = some t) : t.rs = s.rs := by
  have hr : reservationWaiter s = none := by
    unfold reservationWaiter; cases hi : s.rs.intake <;> simp_all [Intake.waiting]
  have hs : slotWaiter s = none := by
    unfold slotWaiter; cases hi : s.rs.intake <;> simp_all [Intake.waiting]
  rcases settleStep_cases h with ⟨_, _, rfl⟩ | ⟨f, hf, rfl⟩ | ⟨f, n, hf, rfl⟩ | h
  · unfold placeHead
    split
    · rfl
    · unfold placeItem
      split
      · simp [placeSet, placeJob, emptySet]
      · simp [placeGroup, placeJob]
      · unfold placeSpill; simp only; split <;> simp [placeJob]
      · unfold placeMarker
        simp only
        split
        · rename_i t ht; simp_all [Intake.waiting]
        all_goals simp
  · simp [reservationGrant, hr] at hf
  · simp [slotGrant, slotAsker, hs] at hf
  · have hp : pressureFor s = none := by simp [pressureFor, slotAsker, hs]
    unfold settleCards at h
    rw [hp] at h
    split at h
    · simp_all
    · cases h; simp [removeMarker]
    · simp_all
    · simp only [boundaryCard, Option.map_eq_some_iff] at h
      obtain ⟨⟨u, k, a⟩, hc, rfl⟩ := h
      split at hc
      · obtain ⟨cs, rfl⟩ := chooseCard_cs hc
        unfold openCard
        simp only
        unfold pump
        repeat' split
        all_goals (try unfold pumpChip)
        all_goals (try unfold nextStep)
        all_goals (repeat' split)
        all_goals simp [closeCard, sendLine]
      · cases hc

theorem settle_rs {s : State} (hw : s.rs.intake.waiting = false) : (settle s).rs = s.rs := by
  have := settle_keeps (P := fun t => t.rs = s.rs ∧ t.rs.intake.waiting = false) (s := s)
    (fun t u h hu => by
      have := settleStep_rs h.2 hu
      exact ⟨this.trans h.1, by rw [this]; exact h.2⟩)
    (fun t h => h) ⟨rfl, hw⟩
  exact this.1

/-- A header can be taken only by an intake that does not wait (R56). -/
theorem headerWaits_waiting {s : State} (h : headerWaits s = true) : s.rs.intake.waiting = false := by
  unfold headerWaits filmHead at h
  split at h
  · rename_i h2
    split at h2
    · rename_i hf
      simp only [filmReady, Bool.and_eq_true, Bool.not_eq_true'] at hf
      exact hf.1.1.2
    · cases h2
  · cases h

theorem meetHeader_rs (s : State) : (meetHeader s).rs = s.rs := by
  unfold meetHeader
  split
  · rename_i h
    unfold beginWake
    exact settle_rs (s := { s with sc := { s.sc with mode := .waking } }) (headerWaits_waiting h.2)
  · rfl

end Sys2Proof.Machine
end

