-- ==== Sys2Proof/Laws/Finish.lean ====
section
/-! SUPPORT. The store mode under everything that follows from a change, and what the end of a command can do. -/

namespace Sys2Proof.Machine

/-! ### The store mode (R106) -/

@[simp] theorem setSlot_mode (n : Nat) (v : Slot) (sc : Sc) : (setSlot n v sc).mode = sc.mode := rfl
@[simp] theorem freeSlot_mode (n : Nat) (sc : Sc) : (freeSlot n sc).mode = sc.mode := rfl
@[simp] theorem moveSlot_mode (n : Nat) (a b : ChipState) (f : Chip → Chip) (sc : Sc) :
    (moveSlot n a b f sc).mode = sc.mode := by
  unfold moveSlot; split <;> (try split) <;> rfl
@[simp] theorem openSlot_mode (k : CardKind) (sc : Sc) : (openSlot k sc).mode = sc.mode := by
  unfold openSlot; split <;> simp
@[simp] theorem queueSlots_mode (id pos : Nat) (cs : List CardPos) (sc : Sc) :
    (queueSlots id pos cs sc).mode = sc.mode := by
  induction cs generalizing pos sc with
  | nil => rfl
  | cons c cs ih => simp [queueSlots, ih]
@[simp] theorem askRead_mode (slot row : Nat) (sc : Sc) : (askRead slot row sc).mode = sc.mode := rfl
@[simp] theorem grantBursts_mode (sc : Sc) : (grantBursts sc).mode = sc.mode := by
  unfold grantBursts
  repeat' split
  all_goals rfl
@[simp] theorem storeIdle_mode (sc : Sc) : (storeIdle sc).mode = sc.mode := by
  unfold storeIdle
  repeat' split
  all_goals simp
@[simp] theorem storeSettle_mode (sc : Sc) : (storeSettle sc).mode = sc.mode := by
  unfold storeSettle
  repeat' split
  all_goals simp
@[simp] theorem storeAfter_mode (sc : Sc) : (storeAfter sc).mode = sc.mode := by simp [storeAfter]

@[simp] theorem closeSet_mode (n : Nat) (b : Bool) (s : State) : (closeSet n b s).sc.mode = s.sc.mode := by
  unfold closeSet; simp only; split <;> simp [emptySet]
@[simp] theorem closeGroup_mode (s : State) : (closeGroup s).sc.mode = s.sc.mode := by simp [closeGroup]
@[simp] theorem placeJob_mode (j : Job) (s : State) : (placeJob j s).sc.mode = s.sc.mode := by simp [placeJob]
@[simp] theorem placeItem_mode (x : BacklogItem) (s : State) : (placeItem x s).sc.mode = s.sc.mode := by
  unfold placeItem
  split
  · simp [placeSet, emptySet]
  · simp [placeGroup]
  · unfold placeSpill; simp only; split <;> simp
  · unfold placeMarker; simp only; split <;> simp
@[simp] theorem placeHead_mode (s : State) : (placeHead s).sc.mode = s.sc.mode := by
  unfold placeHead; split <;> simp
@[simp] theorem requestSpill_mode (s : State) : (requestSpill s).sc.mode = s.sc.mode := by
  unfold requestSpill
  split
  · rfl
  · simp only; split <;> simp
@[simp] theorem askRelease_mode (f : FrameCtx) (s : State) : (askRelease f s).sc.mode = s.sc.mode := by
  unfold askRelease pressureRelease
  repeat' split
  all_goals simp [forceOut]
@[simp] theorem removeMarker_mode (s : State) : (removeMarker s).sc.mode = s.sc.mode := by simp [removeMarker]
@[simp] theorem markerOrRelease_mode (f : FrameCtx) (s : State) : (markerOrRelease f s).sc.mode = s.sc.mode := by
  unfold markerOrRelease; simp only; split <;> simp
@[simp] theorem pump_mode (s : State) : (pump s).sc.mode = s.sc.mode := by
  unfold pump
  repeat' split
  all_goals (try unfold pumpChip)
  all_goals (try unfold nextStep)
  all_goals (repeat' split)
  all_goals simp [closeCard, sendLine]
@[simp] theorem openCard_mode (k : CardKind) (a : Nat) (s : State) : (openCard k a s).sc.mode = s.sc.mode := by
  simp [openCard]

theorem settleStep_mode {s t : State} (h : settleStep s = some t) : t.sc.mode = s.sc.mode := by
  rcases settleStep_cases h with ⟨_, _, rfl⟩ | ⟨f, _, rfl⟩ | ⟨f, n, _, rfl⟩ | h
  · simp
  · simp [grantReservation]
  · simp
  · unfold settleCards at h
    split at h
    · cases h; simp
    · cases h; simp
    · cases h; simp
    · simp only [boundaryCard, Option.map_eq_some_iff] at h
      obtain ⟨⟨u, k, a⟩, hc, rfl⟩ := h
      split at hc
      · obtain ⟨cs, rfl⟩ := chooseCard_cs hc
        simp
      · cases hc

@[simp] theorem settle_mode (s : State) : (settle s).sc.mode = s.sc.mode :=
  settle_keeps (P := fun t => t.sc.mode = s.sc.mode) (fun t u h hu => (settleStep_mode hu).trans h)
    (fun t h => by simpa using h) rfl

@[simp] theorem grantBursts_write_isNone (sc : Sc) : (grantBursts sc).write.isNone = sc.write.isNone := by
  unfold grantBursts
  repeat' split
  all_goals simp_all [grantWrite, grantRead]
@[simp] theorem storeIdle_write_isNone (sc : Sc) : (storeIdle sc).write.isNone = sc.write.isNone := by
  unfold storeIdle
  repeat' split
  all_goals simp
@[simp] theorem storeSettle_write_isNone (sc : Sc) : (storeSettle sc).write.isNone = sc.write.isNone := by
  unfold storeSettle
  repeat' split
  all_goals simp
@[simp] theorem storeAfter_write_isNone (sc : Sc) : (storeAfter sc).write.isNone = sc.write.isNone := by simp [storeAfter]

/-! ### The end of a command -/

/-- R169, R173: what the return channel does. -/
theorem channel_told (s : State) : Told s (channel s) := by
  have e : holdState (channel s) = holdState s := by
    unfold channel arbitrate sendSymbol
    repeat' split
    all_goals rfl
  constructor
  · intro hl hs hh
    rw [e] at hh ⊢
    unfold channel arbitrate sendSymbol
    simp only [hl, hs, hh, ne_eq, not_false_eq_true, and_self, if_true]
    repeat' split
    all_goals exact ⟨rfl, rfl⟩
  · intro h
    rw [e] at h
    have : sendSymbol s = s := by
      unfold sendSymbol
      rw [if_neg]
      rintro ⟨hl, hs, hh⟩
      rcases h with h | h | h
      · rw [hl] at h; cases h
      · exact h hs
      · exact hh h
    unfold channel arbitrate
    rw [this]
    repeat' split
    all_goals exact ⟨rfl, rfl⟩
  · unfold channel arbitrate sendSymbol
    repeat' split
    all_goals simp_all

/-- What the return channel does at the end goes by what the effects before it have not touched. -/
theorem Told.after {u v t : State} (h : SameLink u v) (g : Told v t) : Told u t where
  symbol := by
    intro a b c
    have := g.symbol (h.link.trans a) (h.sending.trans b) (by rw [h.holdTold]; exact c)
    rwa [h.returnOut] at this
  silent := by
    intro a
    have := g.silent (by rw [h.link, h.sending, h.holdTold]; exact a)
    rwa [h.returnOut, h.holdTold] at this
  sending := by
    have := g.sending
    rwa [h.link, h.sending] at this

theorem finish_told {u v : State} (h : SameLink u v) : Told u (finish v) :=
  (channel_told _).after (h.trans (sameLink_meetHeader v))

/-- What the end of a command can do after an effect that sets nothing else off. -/
theorem finish_end (u : State) : EndOfCommand u (finish u) where
  core := sameCore_finish u
  rs := by unfold finish; rw [channel_rs, meetHeader_rs]
  mode := by
    intro h
    unfold finish
    rw [channel_mode]
    unfold meetHeader
    by_cases hw : headerWaits u = true <;> simp [h, hw, beginWake]
  rest := by
    intro h
    have : meetHeader u = u := by
      unfold meetHeader
      rw [if_neg]
      rintro ⟨a, b⟩
      rcases h with h | h
      · exact h a
      · rw [h] at b; cases b
    unfold finish
    rw [this]
    exact channel_frame u
  told := finish_told (.refl u)

/-- A header at the head waits as before when only the SC's bursts and refreshes have gone on. -/
theorem headerWaits_storeAfter (u : State) : headerWaits { u with sc := storeAfter u.sc } = headerWaits u := by
  unfold headerWaits filmHead filmReady
  simp only [storeAfter_write_isNone]

/-- What the end of a command can do after an effect that may set others off. -/
theorem finish_settle_end (u : State) : EndOfEvent u (finish (settle u)) where
  core := (sameLink_settle u).core.trans (sameCore_finish _)
  quiet := by
    intro h hm
    have e := finish_end (settle u) |>.rest (by
      rw [settle_mode]
      rcases hm with hm | hm
      · exact .inl hm
      · rw [settle_quiet h, headerWaits_storeAfter]; exact .inr hm)
    rw [settle_quiet h] at e ⊢
    exact e
  told := finish_told (sameLink_settle u)

/-- What the end of a command is after an effect and all that it sets off. -/
theorem finish_settle_setsOff (u : State) : SetsOff u (finish (settle u)) := ⟨finish_settle_end u, rfl⟩

end Sys2Proof.Machine
end

