-- ==== Sys2Proof/Laws/Commands.lean ====
section
/-! SUPPORT. What the provers cite about whole commands: how one completes, what stands when a film record is taken, the
first effect that follows from a change, and one step of the Resampler's work. -/

namespace Sys2Proof.Machine

/-! ### Completion -/

theorem completes_command {c : Instr} {s u v : State} (h : exec c s = .next (finish v)) (e : v = u) :
    ∃ t, exec c s = .next t ∧ EndOfCommand u t :=
  ⟨_, h, e ▸ finish_end _⟩

theorem completes_setsOff {c : Instr} {s u v : State} (h : exec c s = .next (finish (settle v))) (e : v = u) :
    ∃ t, exec c s = .next t ∧ SetsOff u t :=
  ⟨_, h, e ▸ finish_settle_setsOff _⟩

theorem settle_first {s t : State} (h : settleStep s = some t) :
    ∃ k, settle s = { settleLoop k t with sc := storeAfter (settleLoop k t).sc } := by
  refine ⟨127, ?_⟩
  unfold settle settleFuel
  rw [show settleLoop 128 s = settleLoop 127 t by conv => lhs; unfold settleLoop; rw [h]]

theorem settle_second {s t u : State} (h : settleStep s = some t) (g : settleStep t = some u) :
    ∃ k, settle s = { settleLoop k u with sc := storeAfter (settleLoop k u).sc } := by
  refine ⟨126, ?_⟩
  unfold settle settleFuel
  rw [show settleLoop 128 s = settleLoop 126 u by
    conv => lhs; unfold settleLoop; rw [h]; simp only; unfold settleLoop; rw [g]]

/-- A state that the effects go on from is itself one the command's end is reached from. -/
theorem finish_reached {t r : State} {k : Nat} (hk : r = { settleLoop k t with sc := storeAfter (settleLoop k t).sc }) :
    EndOfEvent t (finish r) := by
  have hl : SameLink t r := by
    rw [hk]
    have : SameLink t (settleLoop k t) :=
      settleLoop_keeps (P := SameLink t) (fun a b ha hb => ha.trans (sameLink_settleStep hb)) k (.refl t)
    exact this.trans (by constructor <;> simp)
  refine ⟨hl.core.trans (sameCore_finish _), ?_, finish_told hl⟩
  intro hn hm
  have hk2 : settleLoop k t = t := by
    cases k with
    | zero => rfl
    | succ k => unfold settleLoop; rw [hn]
  rw [hk2] at hk
  have e := (finish_end r).rest (by
    rcases hm with hm | hm
    · left; rw [hk]; simpa using hm
    · right; rw [hk, headerWaits_storeAfter]; exact hm)
  rw [hk] at e ⊢
  exact e

/-- The first effect that follows from a change is such a state. -/
theorem finish_settle_first {s t : State} (h : settleStep s = some t) : EndOfEvent t (finish (settle s)) :=
  finish_reached (settle_first h).choose_spec

/-- And so is the second. -/
theorem finish_settle_second {s t u : State} (h : settleStep s = some t) (g : settleStep t = some u) :
    EndOfEvent u (finish (settle s)) := finish_reached (settle_second h g).choose_spec

/-! ### Film records at the head (R56) -/

/-- A film record is taken with no intake waiting, no work open and no write burst. -/
theorem filmHead_ready {s : State} {c : Content} (h : filmHead s = some c) :
    filmReady s = true ∧ s.rs.intake.waiting = false ∧ s.rs.work = .none ∧ s.sc.write = none := by
  have : filmReady s = true := by
    unfold filmHead at h; split at h <;> simp_all
  refine ⟨this, ?_⟩
  simp [filmReady] at this
  exact ⟨this.1.1.2, this.1.2, this.2⟩

theorem headHeader_film {s : State} {h : Header} (e : headHeader s = some h) :
    filmHead s = some (.film (.header h)) := by
  unfold headHeader at e; split at e <;> simp_all

theorem headLine_film {s : State} {n : Nat} {x : List Byte} (e : headLine s = some (n, x)) :
    filmHead s = some (.film (.line n x)) := by
  unfold headLine at e; split at e <;> simp_all

theorem headFrameEnd_film {s : State} {n : Nat} (e : headFrameEnd s = some n) :
    filmHead s = some (.film (.frameEnd n)) := by
  unfold headFrameEnd at e; split at e <;> simp_all

theorem headTarget_film {s : State} {k : TargetKind} {t : Target} (e : headTarget k s = some t) :
    filmHead s = some (.film (.target t)) ∧ t.kind = k := by
  unfold headTarget at e
  split at e
  · split at e <;> simp_all
  · simp_all

theorem headLoss_film {s : State} {k : FilmKind} (e : headLoss s = some k) : filmHead s = some (.loss k) := by
  unfold headLoss at e; split at e <;> simp_all

/-- A header taken with the store ACTIVE and no frame open. -/
theorem frameHeader_taken {s : State} {h : Header} (e : headHeader s = some h) (ha : s.sc.mode = .active)
    (hr : ∀ f, s.rs.intake ≠ .receiving f) :
    exec .frameHeader s = .next (finish (settle (takeHeader h (taken s)))) := by
  simp only [exec, execFrameHeader, e, ha, if_true]
  congr 2
  unfold takeFrameHeader
  have : (fresh s).rs = s.rs := rfl
  rw [this]
  cases hi : s.rs.intake <;> simp_all [taken]

/-- R83, R84: an evaluation changes the density monitor and may raise one notice. -/
theorem evaluateHeader_frame (h : Header) (m : Option Matched) (s : State) : ∃ n,
    evaluateHeader h m s = { s with dm := s.dm.evaluate h, fli := n, mu := (evaluateHeader h m s).mu }
      ∧ n.fifo = s.fli.fifo ∧ n.headMarks = s.fli.headMarks
      ∧ (evaluateHeader h m s).mu.body = s.mu.body := by
  unfold evaluateHeader
  simp only
  split
  · split
    · rename_i k _ _
      rcases raiseNotice_cases (headerNotice k h m h.db) { s with dm := s.dm.evaluate h } with ⟨_, e⟩ | ⟨_, e⟩ <;>
        rw [e] <;> exact ⟨_, rfl, rfl, rfl, rfl⟩
    · exact ⟨_, rfl, rfl, rfl, rfl⟩
  · exact ⟨_, rfl, rfl, rfl, rfl⟩

/-! ### The Resampler's work (R67, R70, R75) -/

/-- The work stops at a write burst to be served. -/
theorem runWork_burst {n : Nat} {s : State} {b : WriteBurst} (h : s.sc.write = some b) : runWork n s = s := by
  cases n with
  | zero => rfl
  | succ n => unfold runWork; rw [h]

theorem runWork_none {n : Nat} {s : State} (h : s.rs.work = .none) : runWork n s = s := by
  cases n with
  | zero => rfl
  | succ n =>
    unfold runWork
    repeat' split
    all_goals simp_all [workStep]

theorem runWork_margins {n : Nat} {s : State} {i : Bool} (h : s.rs.work = .margins i []) : runWork n s = s := by
  cases n with
  | zero => rfl
  | succ n =>
    unfold runWork
    repeat' split
    all_goals simp_all [workStep]

theorem runWork_step {n : Nat} {s t : State} {f : FrameCtx} {g : Geometry} (h1 : s.sc.write = none)
    (h2 : s.rs.intake = .receiving f) (h3 : s.rs.geometry = some g)
    (h4 : workStep f g (f.slot.getD 0) s = some t) : runWork (n + 1) s = runWork n t := by
  conv => lhs; unfold runWork
  rw [h1, h2, h3]
  simp only [h4]

/-- One step of work that issues a write burst ends the work until the burst is served. -/
theorem advance_burst {s t : State} {f : FrameCtx} {g : Geometry} {b : WriteBurst} (h1 : s.sc.write = none)
    (h2 : s.rs.intake = .receiving f) (h3 : s.rs.geometry = some g)
    (h4 : workStep f g (f.slot.getD 0) s = some t) (h5 : t.sc.write = some b) : advance s = storeOnly t := by
  unfold advance
  rw [show workFuel = 16399 + 1 from rfl, runWork_step h1 h2 h3 h4, runWork_burst h5]
  simp only
  split
  · rename_i h _; simp_all
  · rfl

/-- One step that leaves no work open ends it. -/
theorem advance_done {s t : State} {f : FrameCtx} {g : Geometry} (h1 : s.sc.write = none)
    (h2 : s.rs.intake = .receiving f) (h3 : s.rs.geometry = some g)
    (h4 : workStep f g (f.slot.getD 0) s = some t) (h5 : t.rs.work = .none) : advance s = storeOnly t := by
  unfold advance
  rw [show workFuel = 16399 + 1 from rfl, runWork_step h1 h2 h3 h4, runWork_none h5]
  simp only
  split
  · rename_i h _; simp_all
  · rfl

end Sys2Proof.Machine
end

