-- ==== Sys2Proof/Laws/Dram.lean ====
section
/-! SUPPORT. The frame of the DRAM: no command but POWER_ON and WRITE_BURST_SERVED changes a byte of it (R71, R99). The
operations of each block first, then every command, then the step. -/

namespace Sys2Proof.Machine

/-! ### What follows from a change -/

@[simp] theorem settle_dram (s : State) : (settle s).sc.dram = s.sc.dram := (sameLink_settle s).dram
@[simp] theorem finish_dram (s : State) : (finish s).sc.dram = s.sc.dram := (sameCore_finish s).dram

/-! ### The SAU -/

@[simp] theorem emptySet_dram (n : Nat) (s : State) : (emptySet n s).sc.dram = s.sc.dram := rfl
@[simp] theorem closeSet_dram (n : Nat) (b : Bool) (s : State) : (closeSet n b s).sc.dram = s.sc.dram := by
  unfold closeSet; simp only; split <;> simp
@[simp] theorem closeGroup_dram (s : State) : (closeGroup s).sc.dram = s.sc.dram := rfl
@[simp] theorem placeJob_dram (j : Job) (s : State) : (placeJob j s).sc.dram = s.sc.dram := by simp [placeJob]
@[simp] theorem placeItem_dram (x : BacklogItem) (s : State) : (placeItem x s).sc.dram = s.sc.dram := by
  unfold placeItem
  split
  · simp [placeSet]
  · simp [placeGroup]
  · unfold placeSpill; simp only; split <;> simp
  · unfold placeMarker; simp only; split <;> simp
@[simp] theorem placeHead_dram (s : State) : (placeHead s).sc.dram = s.sc.dram := by unfold placeHead; split <;> simp
@[simp] theorem serveBacklog_dram (n : Nat) (s : State) : (serveBacklog n s).sc.dram = s.sc.dram := by
  induction n generalizing s with
  | zero => rfl
  | succ n ih => unfold serveBacklog; split <;> simp [ih]
@[simp] theorem drainBacklog_dram (s : State) : (drainBacklog s).sc.dram = s.sc.dram := by simp [drainBacklog]
@[simp] theorem endSet_dram (n r o : Nat) (s : State) : (endSet n r o s).sc.dram = s.sc.dram := by
  unfold endSet
  simp only
  repeat' split
  all_goals simp
@[simp] theorem openRecord_dram (n : Nat) (s : State) : (openRecord n s).sc.dram = s.sc.dram := rfl
@[simp] theorem forceOut_dram (n r o d : Nat) (s : State) : (forceOut n r o d s).sc.dram = s.sc.dram := by
  simp [forceOut]
@[simp] theorem openOrForce_dram (t : Target) (s : State) : (openOrForce t s).sc.dram = s.sc.dram := by
  unfold openOrForce
  repeat' split
  all_goals (try (simp only; split))
  all_goals simp
@[simp] theorem targetOp_dram (t : Target) (s : State) : (targetOp t s).sc.dram = s.sc.dram := by
  unfold targetOp
  simp only
  split
  · unfold startTargetOp; split <;> simp
  · unfold endTargetOp; split <;> simp
  · unfold batchEndOp endBatch
    simp only [drainBacklog_dram]
    repeat' split
    all_goals simp
@[simp] theorem releaseReservation_dram (s : State) : (releaseReservation s).sc.dram = s.sc.dram := by
  unfold releaseReservation; split <;> simp
@[simp] theorem fileSlot_dram (n : Nat) (o : Owner) (g : CardFlags → CardFlags) (sc : Sc) :
    (fileSlot n o g sc).dram = sc.dram := by simp [fileSlot]
@[simp] theorem freeReplaced_dram (p : SheetPos) (sc : Sc) : (freeReplaced p sc).dram = sc.dram := by
  unfold freeReplaced; split <;> simp
@[simp] theorem fileIntoSet_dram (n slot : Nat) (f : FrameCtx) (m : Matched) (s : State) :
    (fileIntoSet n slot f m s).sc.dram = s.sc.dram := by
  have close (c : Prop) [Decidable c] (x : State) : (if c then closeSet n false x else x).sc.dram = x.sc.dram := by
    split <;> simp
  exact (close ..).trans (by simp)
@[simp] theorem fileFrame_dram (f : FrameCtx) (n : Nat) (s : State) : (fileFrame f n s).sc.dram = s.sc.dram := by
  unfold fileFrame
  split
  · simp
  · rfl
  · unfold fileIntoGroup; simp only; split <;> simp
  · simp [filePassThrough]

/-! ### The intake -/

@[simp] theorem evaluateHeader_dram (h : Header) (m : Option Matched) (s : State) :
    (evaluateHeader h m s).sc.dram = s.sc.dram := by
  unfold evaluateHeader
  simp only
  repeat' split
  all_goals simp
@[simp] theorem setUp_dram (h : Header) (m : Option Matched) (rf : Nat) (s : State) :
    (setUp h m rf s).sc.dram = s.sc.dram := by
  unfold setUp noticeClamped
  simp only
  split <;> simp
@[simp] theorem floorTest_dram (h : Header) (m : Option Matched) (rf : Nat) (s : State) :
    (floorTest h m rf s).sc.dram = s.sc.dram := by
  unfold floorTest; split <;> simp [discardFrame]
@[simp] theorem takeHeader_dram (h : Header) (s : State) : (takeHeader h s).sc.dram = s.sc.dram := by
  unfold takeHeader
  repeat' split
  all_goals simp [rejectHeader, skipSuperseded, discardFrame]
@[simp] theorem enterGapped_dram (n : Nat) (sc : Sc) : (enterGapped n sc).dram = sc.dram := by simp [enterGapped]
@[simp] theorem placeLine_dram (f : FrameCtx) (g : Geometry) (n : Nat) (x : List Byte) (s : State) :
    (placeLine f g n x s).sc.dram = s.sc.dram := by
  unfold placeLine; split <;> simp
@[simp] theorem fillLine_dram (f : FrameCtx) (g : Geometry) (n : Nat) (s : State) :
    (fillLine f g n s).sc.dram = s.sc.dram := by simp [fillLine]
@[simp] theorem resampleLine_dram (f : FrameCtx) (g : Geometry) (n : Nat) (x : List Byte) (s : State) :
    (resampleLine f g n x s).sc.dram = s.sc.dram := by
  unfold resampleLine
  simp only
  repeat' split
  all_goals simp
@[simp] theorem sentCheck_dram (f : FrameCtx) (n : Nat) (x : Option Nat) (s : State) :
    (sentCheck f n x s).sc.dram = s.sc.dram := by
  unfold sentCheck
  repeat' split
  all_goals simp
theorem workStep_dram {f : FrameCtx} {g : Geometry} {n : Nat} {s t : State} (h : workStep f g n s = some t) :
    t.sc.dram = s.sc.dram := by
  unfold workStep at h
  repeat' split at h
  all_goals first | cases h; done | (cases h; simp)
@[simp] theorem runWork_dram (n : Nat) (s : State) : (runWork n s).sc.dram = s.sc.dram := by
  induction n generalizing s with
  | zero => rfl
  | succ n ih =>
    unfold runWork
    repeat' split
    · rename_i h; rw [ih, workStep_dram h]
    all_goals rfl
@[simp] theorem fileOpen_dram (s : State) : (fileOpen s).sc.dram = s.sc.dram := by unfold fileOpen; split <;> simp
@[simp] theorem takeCause_dram (s : State) : (takeCause s).sc.dram = s.sc.dram := by
  unfold takeCause
  split <;> simp [lostHeader]
@[simp] theorem closeFrame_dram (b : Bool) (s : State) : (closeFrame b s).sc.dram = s.sc.dram := by
  unfold closeFrame; simp only; split <;> simp
@[simp] theorem advance_dram (s : State) : (advance s).sc.dram = s.sc.dram := by
  unfold advance; simp only; split <;> simp
@[simp] theorem implicitEnd_dram (f : FrameCtx) (s : State) : (implicitEnd f s).sc.dram = s.sc.dram := by
  simp [implicitEnd]
@[simp] theorem dropSlot_dram (n : Option Nat) (sc : Sc) : (dropSlot n sc).dram = sc.dram := by
  unfold dropSlot
  repeat' split
  all_goals simp
@[simp] theorem abortWith_dram (f : FrameCtx) (x : Notice) (s : State) : (abortWith f x s).sc.dram = s.sc.dram := by
  simp [abortWith]

/-! ### The cards -/

@[simp] theorem pump_dram (s : State) : (pump s).sc.dram = s.sc.dram := by
  unfold pump
  repeat' split
  all_goals (try unfold pumpChip)
  all_goals (try unfold nextStep)
  all_goals (repeat' split)
  all_goals simp [closeCard, sendLine]
@[simp] theorem endSlot_dram (k : CardKind) (v : Verdict) (s : State) : (endSlot k v s).sc.dram = s.sc.dram := by
  unfold endSlot
  repeat' split
  all_goals simp
@[simp] theorem separatorDone_dram (s : State) : (separatorDone s).sc.dram = s.sc.dram := by
  unfold separatorDone
  repeat' split
  all_goals rfl
@[simp] theorem copyDone_dram (k : CardKind) (s : State) : (copyDone k s).sc.dram = s.sc.dram := by
  unfold copyDone
  split
  · unfold jobDone
    split
    · rfl
    · simp only; split <;> simp [endJob]
  all_goals simp
@[simp] theorem endAttempt_dram (c : Card) (v : Verdict) (s : State) : (endAttempt c v s).sc.dram = s.sc.dram := by
  unfold endAttempt report noticeRejected
  simp only
  repeat' split
  all_goals simp [clearCard]
@[simp] theorem withdrawRetry_dram (k : CardKind) (s : State) : (withdrawRetry k s).sc.dram = s.sc.dram := by
  unfold withdrawRetry withdrawSlot
  simp only [copyDone_dram]
  repeat' split
  all_goals simp
@[simp] theorem lateAccepted_dram (n : Nat) (s : State) : (lateAccepted n s).sc.dram = s.sc.dram := by
  unfold lateAccepted
  simp only
  repeat' split
  all_goals simp
@[simp] theorem takeAccepted_dram (n : Nat) (s : State) : (takeAccepted n s).sc.dram = s.sc.dram := by
  unfold takeAccepted; split <;> simp
@[simp] theorem takeSpoiled_dram (n : Nat) (r : SpoilReason) (s : State) : (takeSpoiled n r s).sc.dram = s.sc.dram := by
  unfold takeSpoiled; split <;> simp [lateSpoiled]
@[simp] theorem takeRecorderState_dram (b : Bool) (s : State) : (takeRecorderState b s).sc.dram = s.sc.dram := by
  unfold takeRecorderState; split <;> simp
@[simp] theorem takeRestarted_dram (s : State) : (takeRestarted s).sc.dram = s.sc.dram := by
  unfold takeRestarted; simp only; split <;> simp

/-! ### The store -/

@[simp] theorem beginWake_dram (s : State) : (beginWake s).sc.dram = s.sc.dram := by simp [beginWake]
@[simp] theorem dueMoment_dram (sc : Sc) : (dueMoment sc).dram = sc.dram := by
  unfold dueMoment
  repeat' split
  all_goals simp
@[simp] theorem refreshDueStep_dram (sc : Sc) : (refreshDueStep sc).dram = sc.dram := by
  unfold refreshDueStep
  simp only
  repeat' split
  all_goals simp
@[simp] theorem endRefresh_dram (sc : Sc) : (endRefresh sc).dram = sc.dram := by
  unfold endRefresh; split <;> rfl
@[simp] theorem refreshEndStep_dram (sc : Sc) : (refreshEndStep sc).dram = sc.dram := by
  unfold refreshEndStep; split <;> simp
@[simp] theorem freeCards_dram (cs : List CardPos) (sc : Sc) : (freeCards cs sc).dram = sc.dram := by
  induction cs generalizing sc with
  | nil => rfl
  | cons c cs ih => simp [freeCards, ih]

@[simp] theorem intakeLinkLoss_dram (s : State) : (intakeLinkLoss s).sc.dram = s.sc.dram := by
  unfold intakeLinkLoss; split <;> simp
@[simp] theorem markLoss_dram (k : FilmKind) (s : State) : (markLoss k s).sc.dram = s.sc.dram := by
  unfold markLoss; split <;> rfl
@[simp] theorem takeRecord_dram (r : LinkRecord) (s : State) : (takeRecord r s).sc.dram = s.sc.dram := by
  unfold takeRecord takeCheckError overrun
  repeat' split
  all_goals simp [linkError]
@[simp] theorem takeFrameHeader_dram (h : Header) (s : State) : (takeFrameHeader h s).sc.dram = s.sc.dram := by
  unfold takeFrameHeader; split <;> simp
@[simp] theorem takeTarget_dram (t : Target) (s : State) : (takeTarget t s).sc.dram = s.sc.dram := by
  unfold takeTarget; split <;> simp
@[simp] theorem takeLoss_dram (k : FilmKind) (s : State) : (takeLoss k s).sc.dram = s.sc.dram := by
  unfold takeLoss
  repeat' split
  all_goals simp [lostHeader]
@[simp] theorem takeLineRecord_dram (n : Nat) (x : List Byte) (s : State) :
    (takeLineRecord n x s).sc.dram = s.sc.dram := by
  unfold takeLineRecord takeLine
  repeat' split
  all_goals simp
@[simp] theorem takeFrameEndRecord_dram (n : Nat) (s : State) : (takeFrameEndRecord n s).sc.dram = s.sc.dram := by
  unfold takeFrameEndRecord takeFrameEnd
  split <;> simp
@[simp] theorem tableWriteOp_dram (tag kind : Byte) (p : Nat) (x : List Byte) (s : State) :
    (tableWriteOp tag kind p x s).sc.dram = s.sc.dram := by
  unfold tableWriteOp
  repeat' split
  all_goals simp
@[simp] theorem setReleaseOp_dram (tag : Byte) (n : Nat) (s : State) : (setReleaseOp tag n s).sc.dram = s.sc.dram := by
  unfold setReleaseOp releaseSet
  simp only
  repeat' split
  all_goals simp
@[simp] theorem discardSet_dram (n : Nat) (s : State) : (discardSet n s).sc.dram = s.sc.dram := by simp [discardSet]
@[simp] theorem setDiscardOp_dram (tag : Byte) (n : Nat) (s : State) : (setDiscardOp tag n s).sc.dram = s.sc.dram := by
  unfold setDiscardOp
  simp only
  repeat' split
  all_goals simp
@[simp] theorem cardCancelOp_dram (tag : Byte) (s : State) : (cardCancelOp tag s).sc.dram = s.sc.dram := by
  unfold cardCancelOp; split <;> simp [cancelCard]
@[simp] theorem storeSetupOp_dram (tag : Byte) (i n : Nat) (s : State) : (storeSetupOp tag i n s).sc.dram = s.sc.dram := by
  unfold storeSetupOp; split <;> simp
@[simp] theorem storeRetainOp_dram (tag : Byte) (s : State) : (storeRetainOp tag s).sc.dram = s.sc.dram := by
  unfold storeRetainOp
  repeat' split
  all_goals simp
@[simp] theorem storeWakeOp_dram (tag : Byte) (s : State) : (storeWakeOp tag s).sc.dram = s.sc.dram := by
  unfold storeWakeOp; split <;> simp
@[simp] theorem monitorSetupOp_dram (tag : Byte) (m : MonitorFields) (s : State) :
    (monitorSetupOp tag m s).sc.dram = s.sc.dram := by
  unfold monitorSetupOp warnLate
  repeat' split
  all_goals simp
@[simp] theorem recorderSetupOp_dram (tag : Byte) (p t : Nat) (s : State) :
    (recorderSetupOp tag p t s).sc.dram = s.sc.dram := by
  unfold recorderSetupOp; split <;> simp
@[simp] theorem endRead_dram (r : ReadBurst) (sc : Sc) : (endRead r sc).dram = sc.dram := by
  unfold endRead; simp only; split <;> simp
@[simp] theorem endWake_dram (s : State) : (endWake s).sc.dram = s.sc.dram := by
  unfold endWake; simp only; split <;> simp
@[simp] theorem takeMessage_dram (m : RecorderMessage) (s : State) : (takeMessage m s).sc.dram = s.sc.dram := by
  unfold takeMessage; split <;> simp
@[simp] theorem endSending_dram (s : State) : (endSending s).sc.dram = s.sc.dram := by
  unfold endSending
  repeat' split
  all_goals simp
@[simp] theorem purgeSlots_dram (sc : Sc) : (purgeSlots sc).dram = sc.dram := rfl
@[simp] theorem restoreSetup_dram (sc : Sc) : (restoreSetup sc).dram = sc.dram := rfl
@[simp] theorem storePurgeOp_dram (tag : Byte) (s : State) : (storePurgeOp tag s).sc.dram = s.sc.dram := by
  unfold storePurgeOp purgeEnd purgeLast againTarget
  repeat' split
  all_goals simp [purgeAll, purgeFrame]
  all_goals (split <;> simp)
@[simp] theorem resetStore_dram (sc : Sc) : (resetStore sc).dram = sc.dram := by simp [resetStore]
@[simp] theorem abandonCard_dram (s : State) : (abandonCard s).sc.dram = s.sc.dram := by
  unfold abandonCard; split <;> simp

/-! ### Every command -/

/-- R71, R99: no command but POWER_ON and WRITE_BURST_SERVED changes a byte of the DRAM. -/
theorem exec_dram {c : Instr} {s t : State} (hp : c ≠ .powerOn) (hw : c ≠ .writeBurstServed)
    (h : exec c s = .next t) : t.sc.dram = s.sc.dram := by
  cases c <;> simp only [exec] at h
  case powerOn => exact absurd rfl hp
  case writeBurstServed => exact absurd rfl hw
  all_goals
    simp only [execLoadingEnd, execLinkUp, execLinkLoss, execRecordReceived, execFrameHeader, execLine, execFrameEnd,
      execStart, execEndTarget, execBatchEnd, execLossIndication, execTableWrite, execTableFence, execTableRead,
      execTableDescribe, execSetRelease, execSetDiscard, execCardCancel, execStoreSetup, execStoreRetain, execStoreWake,
      execStorePurge, execStorePurgeDone, execMonitorSetup, execRecorderSetup, execStatusRead, execStatusClear,
      execLinkReset, execLinkResetComplete, execUnknownKind, execReadBurstServed, execRefreshDue, execRefreshEnd,
      execWakeEnd, execResponseTimerExpiry, execRecorderState, execCardAccepted, execCardSpoiled, execRecorderRestarted,
      execRecorderMessageDropped, execReturnSendEnd] at h
    (repeat' split at h) <;> cases h <;>
      simp [handOver, raiseLink, dropLink, tableFenceOp, tableReadOp, tableDescribeOp, purgeDoneOp, purgeLast,
        statusReadOp, statusClearOp, linkResetOp, resetCompleteOp, unknownKindOp, readServed, expireTimer]

/-- The frame of the DRAM, of a step: the command at the front is neither POWER_ON nor WRITE_BURST_SERVED. -/
theorem step_dram {s t : State} {c : Instr} {cs : List Instr} (hq : s.pending = c :: cs) (hp : c ≠ .powerOn)
    (hw : c ≠ .writeBurstServed) (h : step s = .next t) : t.sc.dram = s.sc.dram := by
  unfold step at h
  rw [hq] at h
  exact exec_dram (s := { s with pending := cs }) hp hw h

end Sys2Proof.Machine
end

