-- ==== Sys2Proof/Laws/Memory.lean ====
section
/-! SUPPORT. The DRAM keeps its canonical form under every operation on it (log entry 5). -/

namespace Sys2Proof.Machine

/-- The canonical form, cell by cell. -/
theorem dramWfFrom_iff (lo : Nat) (m : List Host.Cell) :
    dramWfFrom lo m = true ↔
      (∀ c, c ∈ m → lo ≤ c.1 ∧ c.1 < Config.storeBytes ∧ c.2 ≠ 0) ∧ m.Pairwise (fun a b => a.1 < b.1) := by
  induction m generalizing lo with
  | nil => simp [dramWfFrom]
  | cons c cs ih =>
    simp only [dramWfFrom, Bool.and_eq_true, decide_eq_true_eq, bne_iff_ne, ne_eq, ih, List.mem_cons,
      forall_eq_or_imp, List.pairwise_cons]
    constructor
    · rintro ⟨⟨⟨h1, h2⟩, h3⟩, h4, h5⟩
      exact ⟨⟨⟨h1, h2, h3⟩, fun d hd => ⟨by have := (h4 d hd).1; omega, (h4 d hd).2⟩⟩,
        fun d hd => by have := (h4 d hd).1; omega, h5⟩
    · rintro ⟨⟨⟨h1, h2, h3⟩, h4⟩, h5, h6⟩
      exact ⟨⟨⟨h1, h2⟩, h3⟩, fun d hd => ⟨by have := h5 d hd; omega, (h4 d hd).2⟩, h6⟩

theorem dramWf_iff (m : List Host.Cell) :
    dramWf m = true ↔ (∀ c, c ∈ m → c.1 < Config.storeBytes ∧ c.2 ≠ 0) ∧ m.Pairwise (fun a b => a.1 < b.1) := by
  simp [dramWf, dramWfFrom_iff]

/-- The cells of a run lie in the run and are not zero. -/
theorem mem_runCells {base : Nat} {vs : List Byte} {c : Host.Cell} (h : c ∈ runCells base vs) :
    base ≤ c.1 ∧ c.1 < base + vs.length ∧ c.2 ≠ 0 := by
  induction vs generalizing base with
  | nil => simp [runCells] at h
  | cons v vs ih =>
    by_cases hv : v = 0
    · simp only [runCells, hv, if_true] at h
      have := ih h
      simp only [List.length_cons]
      exact ⟨by omega, by omega, this.2.2⟩
    · simp only [runCells, hv, if_false, List.mem_cons] at h
      rcases h with h | h
      · subst h; simp only [List.length_cons]; exact ⟨by omega, by omega, hv⟩
      · have := ih h
        simp only [List.length_cons]
        exact ⟨by omega, by omega, this.2.2⟩

theorem runCells_rising (base : Nat) (vs : List Byte) : (runCells base vs).Pairwise (fun a b => a.1 < b.1) := by
  induction vs generalizing base with
  | nil => simp [runCells]
  | cons v vs ih =>
    by_cases hv : v = 0
    · simpa [runCells, hv] using ih (base + 1)
    · simp only [runCells, hv, if_false, List.pairwise_cons]
      exact ⟨fun c hc => by have := (mem_runCells hc).1; omega, ih (base + 1)⟩

/-- A run written inside the store keeps the canonical form. -/
theorem dramWriteRun_wf {m : List Host.Cell} {base : Nat} {vs : List Byte} (h : dramWf m = true)
    (hb : base + vs.length ≤ Config.storeBytes) : dramWf (dramWriteRun m base vs) = true := by
  rw [dramWf_iff] at h ⊢
  obtain ⟨hm, hp⟩ := h
  unfold dramWriteRun
  constructor
  · intro c hc
    simp only [List.mem_append, List.mem_filter] at hc
    rcases hc with (hc | hc) | hc
    · exact hm c hc.1
    · have := mem_runCells hc
      exact ⟨by omega, this.2.2⟩
    · exact hm c hc.1
  · rw [List.pairwise_append, List.pairwise_append]
    refine ⟨⟨hp.filter _, runCells_rising base vs, ?_⟩, hp.filter _, ?_⟩
    · intro a ha b hb'
      have := mem_runCells hb'
      simp only [List.mem_filter, decide_eq_true_eq] at ha
      omega
    · intro a ha b hb'
      simp only [List.mem_append, List.mem_filter, decide_eq_true_eq] at ha hb'
      rcases ha with ha | ha
      · omega
      · have := mem_runCells ha
        omega

/-- A place inside a slot lies inside the store. -/
theorem dotAddress_lt {slot row column n : Nat} (hs : slot < Config.slotCount) (hr : row < slotSide)
    (hc : column + n ≤ slotSide) : dotAddress slot row column + n ≤ Config.storeBytes := by
  simp only [Config.slotCount, slotSide, dotAddress, Config.slotBytes, Config.chipColumns, Config.storeBytes] at *
  omega

theorem writeRows_wf {slot first : Nat} {rows : List (List Byte)} {m : List Host.Cell} (h : dramWf m = true)
    (hs : slot < Config.slotCount) (hf : first + rows.length ≤ slotSide) (hl : ∀ l, l ∈ rows → l.length ≤ slotSide) :
    dramWf (writeRows slot first rows m) = true := by
  induction rows generalizing first m with
  | nil => simpa [writeRows] using h
  | cons r rs ih =>
    simp only [List.length_cons] at hf
    apply ih (dramWriteRun_wf h _) (by omega) (fun l hl' => hl l (List.mem_cons_of_mem _ hl'))
    exact dotAddress_lt hs (by omega) (by have := hl r List.mem_cons_self; omega)

theorem writeColumn_wf {slot column row : Nat} {vs : List Byte} {m : List Host.Cell} (h : dramWf m = true)
    (hs : slot < Config.slotCount) (hc : column < slotSide) (hr : row + vs.length ≤ slotSide) :
    dramWf (writeColumn slot column row vs m) = true := by
  induction vs generalizing row m with
  | nil => simpa [writeColumn] using h
  | cons v vs ih =>
    simp only [List.length_cons] at hr
    apply ih (dramWriteRun_wf h _) (by omega)
    exact dotAddress_lt hs (by omega) (by simp; omega)

theorem writeColumns_wf {slot first : Nat} {cols : List (List Byte)} {m : List Host.Cell} (h : dramWf m = true)
    (hs : slot < Config.slotCount) (hf : first + cols.length ≤ slotSide) (hl : ∀ l, l ∈ cols → l.length ≤ slotSide) :
    dramWf (writeColumns slot first cols m) = true := by
  induction cols generalizing first m with
  | nil => simpa [writeColumns] using h
  | cons r rs ih =>
    simp only [List.length_cons] at hf
    apply ih (writeColumn_wf h hs (by omega) _) (by omega) (fun l hl' => hl l (List.mem_cons_of_mem _ hl'))
    have := hl r List.mem_cons_self; omega

/-- What a write burst does to the DRAM's form: a burst that stays in its slot keeps it. -/
theorem writeBurstDots_wf {b : WriteBurst} {m : List Host.Cell} (h : dramWf m = true) (hb : writeFits b = true) :
    dramWf (writeBurstDots b m) = true := by
  simp only [writeFits, Bool.and_eq_true, decide_eq_true_eq, List.all_eq_true] at hb
  obtain ⟨⟨hs, hf⟩, hl⟩ := hb
  unfold writeBurstDots
  cases b.axis
  · exact writeRows_wf h hs hf hl
  · exact writeColumns_wf h hs hf hl

end Sys2Proof.Machine
end

