-- ==== Sys2Proof/Laws/Work.lean ====
section
/-! SUPPORT. What the provers cite about `advance`: all that the Resampler's work on a LINE, on a fill and on a close can
do (R65 to R76). -/

namespace Sys2Proof.Machine

/-! ### Fills -/

/-- GAPPED leaves the write burst alone. -/
@[simp] theorem enterGapped_write (k : Nat) (sc : Sc) : (enterGapped k sc).write = sc.write := by
  unfold enterGapped changeChip; split <;> rfl

/-- R67: GAPPED entered twice is GAPPED entered. -/
theorem enterGapped_twice (k : Nat) (sc : Sc) : enterGapped k (enterGapped k sc) = enterGapped k sc := by
  unfold enterGapped changeChip
  cases h : slotAt sc k with
  | held st c =>
    have hk : k < sc.slots.length := by
      by_cases hk : k < sc.slots.length
      · exact hk
      · simp [slotAt, List.getD_eq_getElem?_getD, List.getElem?_eq_none (Nat.le_of_not_lt hk)] at h
    simp [setSlot, slotAt, hk]
  | free => simp [h]
  | offline => simp [h]

/-- The frame and the slot's part after the lines from the expected one up to `i` have been filled. -/
def filledTo (f : FrameCtx) (k i : Nat) (s : State) : State :=
  if f.expected = i then s
  else { s with
    rs := { s.rs with intake := .receiving { f.gapped with expected := i } }, sc := enterGapped k s.sc }

/-- The work fills each line below `limit` that it expects. -/
def FillsBelow (limit : Nat) (w : Work) (hf : Nat) (g : Geometry) (k : Nat) : Prop :=
  ∀ (t : State) (f : FrameCtx), t.rs.work = w → f.hf = hf → f.expected < limit →
    workStep f g k t = some (fillLine f g k t)

/-- R67: a LINE above the expected number fills the lines below it. -/
theorem fillsBelow_line (n hf : Nat) (samples : List Byte) (g : Geometry) (k : Nat) :
    FillsBelow n (.line n samples) hf g k := by
  intro t f ht _ hx
  simp [workStep, ht, hx]

/-- R75 step 1: the trailing fill reaches to Hf. -/
theorem fillsBelow_fill (sent : Option Nat) (hf : Nat) (g : Geometry) (k : Nat) :
    FillsBelow hf (.fill sent) hf g k := by
  intro t f ht hh hx
  rw [← hh] at hx
  simp [workStep, ht, hx]

/-- R67, R70: lines whose bands are empty are filled with nothing written. -/
theorem runWork_fills {limit : Nat} {g : Geometry} {k : Nat} (d : Nat) : ∀ {n : Nat} {s : State} {f : FrameCtx},
    s.sc.write = none → s.rs.intake = .receiving f → s.rs.geometry = some g → f.slot = some k →
    FillsBelow limit s.rs.work f.hf g k → f.expected + d ≤ limit →
    (∀ j, f.expected ≤ j → j < f.expected + d →
      mapLine g k f.depth f.margin f.carry j (List.replicate f.wf 0) = none) →
    runWork (n + d) s = runWork n (filledTo f k (f.expected + d) s) := by
  induction d with
  | zero => intro n s f _ _ _ _ _ _ _; simp [filledTo]
  | succ d ih =>
    intro n s f h1 h2 h3 h4 h5 h6 h7
    have hs := h5 s f rfl rfl (by omega)
    have he := h7 f.expected (Nat.le_refl _) (by omega)
    have hf : fillLine f g k s =
        { s with
          rs := { s.rs with intake := .receiving { f.gapped with expected := f.expected + 1 } }
          sc := enterGapped k s.sc } := by
      unfold fillLine placeLine filledInks
      rw [show mapLine g k f.gapped.depth f.gapped.margin f.gapped.carry f.gapped.expected
        (List.replicate f.wf 0) = none from he]
      rfl
    rw [show n + (d + 1) = (n + d) + 1 from rfl,
      runWork_step h1 h2 h3 (by rw [h4]; exact hs), hf]
    have e := ih (n := n) (s := { s with
          rs := { s.rs with intake := .receiving { f.gapped with expected := f.expected + 1 } }
          sc := enterGapped k s.sc }) (f := { f.gapped with expected := f.expected + 1 })
      (by simpa using h1) rfl h3 h4 h5 (by show f.expected + 1 + d ≤ limit; omega)
      (fun j a b => h7 j (by have : f.expected + 1 ≤ j := a; omega) (by have : j < f.expected + 1 + d := b; omega))
    rw [e]
    congr 1
    unfold filledTo
    have ne : ¬ f.expected = f.expected + (d + 1) := by omega
    simp only [ne, if_false, enterGapped_twice]
    by_cases hd : d = 0
    · subst hd; simp
    · have : ¬ (f.expected + 1 = f.expected + 1 + d) := by omega
      simp only [this, if_false]
      rw [show f.expected + 1 + d = f.expected + (d + 1) by omega]
      rfl

/-- A fill of a line with a band: the work stops at its burst. -/
theorem runWork_fillBurst {limit i : Nat} {g : Geometry} {k : Nat} {b : WriteBurst} {c : Carry} {n : Nat} {s : State}
    {f : FrameCtx} (h1 : s.sc.write = none) (h2 : s.rs.intake = .receiving f) (h3 : s.rs.geometry = some g)
    (h4 : f.slot = some k) (h5 : FillsBelow limit s.rs.work f.hf g k) (h : NextFill f g k limit i b c) (hn : limit < n) :
    runWork n s =
      { s with
        rs := { s.rs with intake := .receiving { f.gapped with expected := i + 1, carry := some c } }
        sc := { enterGapped k s.sc with write := some b } } := by
  obtain ⟨m, rfl⟩ : ∃ m, n = (m + 1) + (i - f.expected) := ⟨n - 1 - (i - f.expected), by have := h.below; omega⟩
  have hi : f.expected + (i - f.expected) = i := by have := h.start; omega
  rw [runWork_fills (i - f.expected) h1 h2 h3 h4 h5 (by rw [hi]; exact Nat.le_of_lt h.below)
    (fun j a c => h.empty j a (by omega)), hi]
  have hb : ∀ (t : State) (f' : FrameCtx), (f' = f ∨ f' = { f.gapped with expected := i }) → f'.expected = i →
      t.rs.work = s.rs.work → t.sc.write = none → t.rs.intake = .receiving f' → t.rs.geometry = some g →
      runWork (m + 1) t =
        { t with
          rs := { t.rs with intake := .receiving { f.gapped with expected := i + 1, carry := some c } }
          sc := { enterGapped k t.sc with write := some b } } := by
    intro t f' hf' hx hw t1 t2 t3
    have e : fillLine f' g k t =
        { t with
          rs := { t.rs with intake := .receiving { f.gapped with expected := i + 1, carry := some c } }
          sc := { enterGapped k t.sc with write := some b } } := by
      unfold fillLine placeLine filledInks
      rw [show mapLine g k f'.gapped.depth f'.gapped.margin f'.gapped.carry f'.gapped.expected
        (List.replicate f'.wf 0) = some (b, c) by
          show mapLine g k f'.depth f'.margin f'.carry f'.expected (List.replicate f'.wf 0) = some (b, c)
          rw [hx]
          rcases hf' with rfl | rfl <;> exact h.burst]
      rcases hf' with rfl | rfl
      · simp only [askWrite]; rw [← hx]; rfl
      · rfl
    have hk : f'.slot = some k := by rcases hf' with rfl | rfl <;> exact h4
    have hh : f'.hf = f.hf := by rcases hf' with rfl | rfl <;> rfl
    rw [runWork_step t1 t2 t3 (by rw [hk]; exact h5 t f' hw hh (by rw [hx]; exact h.below)), e]
    exact runWork_burst (b := b) rfl
  by_cases hx : f.expected = i
  · have : filledTo f k i s = s := by simp [filledTo, hx]
    rw [this]
    exact hb s f (.inl rfl) hx rfl h1 h2 h3
  · have : filledTo f k i s = { s with
        rs := { s.rs with intake := .receiving { f.gapped with expected := i } }, sc := enterGapped k s.sc } := by
      simp [filledTo, hx]
    rw [this]
    refine (hb { s with
        rs := { s.rs with intake := .receiving { f.gapped with expected := i } }, sc := enterGapped k s.sc }
      { f.gapped with expected := i } (.inr rfl) rfl rfl (by simpa using h1) rfl h3).trans ?_
    simp only [enterGapped_twice]

/-- No band left to fill below the limit: the work goes on behind it. -/
theorem runWork_noFill {limit : Nat} {g : Geometry} {k n : Nat} {s : State} {f : FrameCtx} (h1 : s.sc.write = none)
    (h2 : s.rs.intake = .receiving f) (h3 : s.rs.geometry = some g) (h4 : f.slot = some k)
    (h5 : FillsBelow limit s.rs.work f.hf g k) (h : NoFill f g k limit) (hn : limit ≤ n) :
    ∃ m, n ≤ m + limit ∧ runWork n s = runWork m (filledTo f k (max f.expected limit) s) := by
  by_cases hx : f.expected < limit
  · obtain ⟨m, rfl⟩ : ∃ m, n = m + (limit - f.expected) := ⟨n - (limit - f.expected), by omega⟩
    refine ⟨m, by omega, ?_⟩
    have e : f.expected + (limit - f.expected) = limit := by omega
    rw [runWork_fills (limit - f.expected) h1 h2 h3 h4 h5 (by omega) (fun j a b => h j a (by omega)), e,
      show max f.expected limit = limit by omega]
  · exact ⟨n, by omega, by rw [show max f.expected limit = f.expected by omega]; simp [filledTo]⟩

/-! ### Filing leaves the FLI alone -/

@[simp] theorem closeSet_fli (n : Nat) (b : Bool) (s : State) : (closeSet n b s).fli = s.fli := by
  unfold closeSet; simp only; split <;> rfl

@[simp] theorem fileIntoSet_fli (n k : Nat) (f : FrameCtx) (m : Matched) (s : State) :
    (fileIntoSet n k f m s).fli = s.fli := by
  unfold fileIntoSet
  extract_lets
  split
  · rw [closeSet_fli]
  · rfl

@[simp] theorem fileIntoGroup_fli (k : Nat) (f : FrameCtx) (s : State) : (fileIntoGroup k f s).fli = s.fli := by
  unfold fileIntoGroup
  extract_lets
  split <;> rfl

@[simp] theorem fileFrame_fli (f : FrameCtx) (k : Nat) (s : State) : (fileFrame f k s).fli = s.fli := by
  unfold fileFrame
  split
  · rw [fileIntoSet_fli]
  · rfl
  · rw [fileIntoGroup_fli]
  · rfl

@[simp] theorem fileOpen_fli (s : State) : (fileOpen s).fli = s.fli := by
  unfold fileOpen
  split
  · exact fileFrame_fli _ _ s
  all_goals rfl

/-! ### What `advance` can do -/

/-- R75 step 4, R76: with nothing of the close left the frame is filed. -/
theorem advance_filed {s : State} {i : Bool} (h1 : s.sc.write = none) (h2 : s.rs.work = .margins i []) :
    Filed i s (finish (advance s)) := by
  have e : advance s = closeFrame i s := by
    unfold advance
    rw [runWork_margins h2]
    simp only [h2, h1]
  rw [e]
  have hh : headItem (settle (fileOpen s)).fli = headItem s.fli := by
    have hg := sameLink_settle (fileOpen s)
    unfold headItem
    rw [hg.headMarks, hg.fifo, fileOpen_fli]
  refine ⟨?_, ?_, ?_, ?_⟩
  · rintro rfl
    exact finish_settle_setsOff _
  · rintro h rfl hd
    simp only [closeFrame, takeCause, hh, hd, if_true]
    exact finish_settle_setsOff _
  · rintro x rfl hd
    simp only [closeFrame, takeCause, hh, hd, if_true]
    exact finish_settle_setsOff _
  · rintro rfl hd
    simp only [closeFrame, takeCause, hh, hd, if_true]
    exact finish_end _

/-- R65, R68: the expected line is placed. -/
theorem runWork_place {s : State} {f : FrameCtx} {g : Geometry} {k n m : Nat} {samples : List Byte}
    (h1 : s.sc.write = none) (h2 : s.rs.intake = .receiving f) (h3 : s.rs.geometry = some g) (h4 : f.slot = some k)
    (h5 : s.rs.work = .line n samples) (h6 : f.expected = n) (f1 : FrameCtx) (sc1 : Sc)
    (e1 : (f1, sc1) = if samples = [] ∨ samples.length < f.wf then (f.gapped, enterGapped k s.sc) else (f, s.sc)) :
    (∀ b c, mapLine g k f.depth f.margin f.carry n (lineInks (s.rs.tone.getD []) f.wf samples) = some (b, c) →
      runWork (m + 1) s = { s with
        rs := { s.rs with intake := .receiving { f1 with expected := n + 1, carry := some c }, work := .none }
        sc := { sc1 with write := some b } })
    ∧ (mapLine g k f.depth f.margin f.carry n (lineInks (s.rs.tone.getD []) f.wf samples) = none →
      runWork (m + 1) s = { s with
        rs := { s.rs with intake := .receiving { f1 with expected := n + 1 }, work := .none }, sc := sc1 }) := by
  have hstep : workStep f g (f.slot.getD 0) s = some (setWork .none (resampleLine f g k samples s)) := by
    simp [workStep, h5, h6, h4]
  have hr : resampleLine f g k samples s =
      placeLine f1 g k (lineInks (s.rs.tone.getD []) f.wf samples) { s with sc := sc1 } := by
    unfold resampleLine fillLine
    by_cases hs : samples = []
    · subst hs
      simp only [true_or, if_true, Prod.mk.injEq] at e1 ⊢
      rw [e1.1, e1.2]
      simp [filledInks, lineInks]
    · by_cases hl : samples.length < f.wf
      · simp only [hl, or_true, if_true, Prod.mk.injEq] at e1
        rw [if_neg hs, if_pos hl, e1.1, e1.2]
      · simp only [hs, hl, or_self, if_false, Prod.mk.injEq] at e1
        rw [if_neg hs, if_neg hl, e1.1, e1.2]
  have hf : f1.expected = n ∧ f1.depth = f.depth ∧ f1.margin = f.margin ∧ f1.carry = f.carry := by
    split at e1 <;> simp only [Prod.mk.injEq] at e1 <;> rw [e1.1] <;> exact ⟨h6, rfl, rfl, rfl⟩
  rw [runWork_step h1 h2 h3 hstep, hr]
  unfold placeLine
  rw [hf.1, hf.2.1, hf.2.2.1, hf.2.2.2]
  constructor
  · intro b c hm
    rw [hm]
    exact runWork_burst (b := b) rfl
  · intro hm
    rw [hm]
    exact runWork_none rfl

/-- What the RS does with a LINE it has taken (R65, R67, R68, R74). -/
theorem advance_line {s : State} {f : FrameCtx} {g : Geometry} {k n : Nat} {samples : List Byte}
    (h1 : s.sc.write = none) (h2 : s.rs.intake = .receiving f) (h3 : s.rs.geometry = some g) (h4 : f.slot = some k)
    (h5 : s.rs.work = .line n samples) (h6 : f.expected ≤ n) (h7 : n ≤ 16383) :
    LineHandled s f g k n samples (finish (advance s)) := by
  have hb : FillsBelow n s.rs.work f.hf g k := by rw [h5]; exact fillsBelow_line n f.hf samples g k
  refine ⟨?_, ?_⟩
  · intro i b c hf
    have e : advance s = receivingWith { f.gapped with expected := i + 1, carry := some c } (.line n samples)
        { enterGapped k s.sc with write := some b } s := by
      unfold advance
      rw [runWork_fillBurst h1 h2 h3 h4 hb hf (by unfold workFuel; omega)]
      simp only [h5]
      simp [storeOnly, receivingWith]
    rw [e]
    exact finish_end _
  · intro hn f1 sc1 e1
    obtain ⟨m, hm, e⟩ := runWork_noFill (n := workFuel) h1 h2 h3 h4 hb hn (by unfold workFuel; omega)
    obtain ⟨m, rfl⟩ : ∃ p, m = p + 1 := ⟨m - 1, by unfold workFuel at hm; omega⟩
    rw [show max f.expected n = n by omega] at e
    have key : (∀ b c, mapLine g k f.depth f.margin f.carry n (lineInks (s.rs.tone.getD []) f.wf samples) = some (b, c) →
          runWork workFuel s = { s with
            rs := { s.rs with intake := .receiving { f1 with expected := n + 1, carry := some c }, work := .none }
            sc := { sc1 with write := some b } })
        ∧ (mapLine g k f.depth f.margin f.carry n (lineInks (s.rs.tone.getD []) f.wf samples) = none →
          runWork workFuel s = { s with
            rs := { s.rs with intake := .receiving { f1 with expected := n + 1 }, work := .none }, sc := sc1 }) := by
      rw [e]
      by_cases hx : f.expected = n
      · have : filledTo f k n s = s := by simp [filledTo, hx]
        rw [this]
        exact runWork_place h1 h2 h3 h4 h5 hx f1 sc1 (by
          rw [e1]
          simp [show ¬ f.expected < n by omega])
      · have : filledTo f k n s = { s with
            rs := { s.rs with intake := .receiving { f.gapped with expected := n } }, sc := enterGapped k s.sc } := by
          simp [filledTo, hx]
        rw [this]
        rw [if_pos (.inl (by omega))] at e1
        cases e1
        refine runWork_place (s := { s with
            rs := { s.rs with intake := .receiving { f.gapped with expected := n } }, sc := enterGapped k s.sc })
          (f := { f.gapped with expected := n }) (by simpa using h1) rfl h3 h4 h5 rfl
          { f.gapped with expected := n } (enterGapped k s.sc) ?_
        split
        · rw [enterGapped_twice]; rfl
        · rfl
    refine ⟨fun b c hm => ?_, fun hm => ?_⟩
    · have e : advance s = receivingWith { f1 with expected := n + 1, carry := some c } .none
          { sc1 with write := some b } s := by
        unfold advance
        rw [key.1 b c hm]
        rfl
      rw [e]
      exact finish_end _
    · have e : advance s = receivingWith { f1 with expected := n + 1 } .none sc1 s := by
        unfold advance
        rw [key.2 hm]
        rfl
      rw [e]
      exact finish_end _

/-- R75 steps 2 and 3: with the trailing fill done the closing bursts begin. -/
theorem runWork_margins_begin {s : State} {f : FrameCtx} {g : Geometry} {k m : Nat} {sent : Option Nat}
    (h1 : s.sc.write = none) (h2 : s.rs.intake = .receiving f) (h3 : s.rs.geometry = some g) (h4 : f.slot = some k)
    (h5 : s.rs.work = .fill sent) (h6 : f.hf ≤ f.expected) (f1 : FrameCtx) (sc1 : Sc)
    (e1 : (f1, sc1) = if sent.any (fun n => decide (f.records < n)) = true then (f.gapped, enterGapped k s.sc)
      else (f, s.sc)) :
    (∀ b bs, closingBursts g = b :: bs → runWork (m + 2) s = { s with
      rs := { s.rs with intake := .receiving f1, work := .margins sent.isNone bs }
      sc := { sc1 with write := some (marginBurst g k f.depth f.margin b.1 b.2) } })
    ∧ (closingBursts g = [] → runWork (m + 2) s = { s with
      rs := { s.rs with intake := .receiving f1, work := .margins sent.isNone [] }, sc := sc1 }) := by
  have hs : sentCheck f k sent s = { s with rs := { s.rs with intake := .receiving f1 }, sc := sc1 } := by
    unfold sentCheck
    cases sent with
    | none =>
      simp only [Option.any_none, Bool.false_eq_true, if_false, Prod.mk.injEq] at e1
      rw [e1.1, e1.2, ← h2]
    | some n =>
      by_cases hn : f.records < n
      · simp only [Option.any_some, hn, decide_true, if_true, Prod.mk.injEq] at e1
        simp only [hn, if_true]
        rw [e1.1, e1.2]
      · simp only [Option.any_some, hn, decide_false, Bool.false_eq_true, if_false, Prod.mk.injEq] at e1
        simp only [hn, if_false]
        rw [e1.1, e1.2, ← h2]
  have hstep : workStep f g (f.slot.getD 0) s
      = some (setWork (.margins sent.isNone (closingBursts g)) (sentCheck f k sent s)) := by
    simp [workStep, h5, h4, Nat.not_lt.mpr h6]
  have hw : sc1.write = none := by
    split at e1 <;> simp only [Prod.mk.injEq] at e1 <;> rw [e1.2] <;> simp [h1]
  have hf : f1.slot = some k ∧ f1.depth = f.depth ∧ f1.margin = f.margin := by
    split at e1 <;> simp only [Prod.mk.injEq] at e1 <;> rw [e1.1] <;> exact ⟨h4, rfl, rfl⟩
  rw [show m + 2 = (m + 1) + 1 from rfl, runWork_step h1 h2 h3 hstep, hs]
  constructor
  · intro b bs hc
    rw [hc]
    refine (runWork_step (f := f1) (g := g)
      (s := { s with rs := { s.rs with intake := .receiving f1, work := .margins sent.isNone (b :: bs) }, sc := sc1 })
      (t := { s with
        rs := { s.rs with intake := .receiving f1, work := .margins sent.isNone bs }
        sc := askWrite (marginBurst g k f.depth f.margin b.1 b.2) sc1 }) hw rfl h3 ?_).trans ?_
    · simp only [workStep, setWork, hf.1, hf.2.1, hf.2.2, Option.getD_some]
    · exact runWork_burst (b := marginBurst g k f.depth f.margin b.1 b.2) rfl
  · intro hc
    rw [hc]
    exact runWork_margins (i := sent.isNone) rfl

/-- What the RS does at a frame's end (R75, R76). -/
theorem advance_close {s : State} {f : FrameCtx} {g : Geometry} {k : Nat} {sent : Option Nat}
    (h1 : s.sc.write = none) (h2 : s.rs.intake = .receiving f) (h3 : s.rs.geometry = some g) (h4 : f.slot = some k)
    (h5 : s.rs.work = .fill sent) (h7 : f.hf ≤ 16383) : CloseHandled s f g k sent (finish (advance s)) := by
  have hb : FillsBelow f.hf s.rs.work f.hf g k := by rw [h5]; exact fillsBelow_fill sent f.hf g k
  refine ⟨?_, ?_⟩
  · intro i b c hf
    have e : advance s = receivingWith { f.gapped with expected := i + 1, carry := some c } (.fill sent)
        { enterGapped k s.sc with write := some b } s := by
      unfold advance
      rw [runWork_fillBurst h1 h2 h3 h4 hb hf (by unfold workFuel; omega)]
      simp only [h5]
      simp [storeOnly, receivingWith]
    rw [e]
    exact finish_end _
  · intro hn f1 sc1 e1
    obtain ⟨m, hm, e⟩ := runWork_noFill (n := workFuel) h1 h2 h3 h4 hb hn (by unfold workFuel; omega)
    obtain ⟨m, rfl⟩ : ∃ p, m = p + 2 := ⟨m - 2, by unfold workFuel at hm; omega⟩
    have key : (∀ b bs, closingBursts g = b :: bs → runWork workFuel s = { s with
          rs := { s.rs with
            intake := .receiving { f1 with expected := max f.expected f.hf }, work := .margins sent.isNone bs }
          sc := { sc1 with write := some (marginBurst g k f.depth f.margin b.1 b.2) } })
        ∧ (closingBursts g = [] → runWork workFuel s = { s with
          rs := { s.rs with
            intake := .receiving { f1 with expected := max f.expected f.hf }, work := .margins sent.isNone [] }
          sc := sc1 }) := by
      rw [e]
      by_cases hx : f.expected < f.hf
      · rw [show max f.expected f.hf = f.hf by omega]
        have : filledTo f k f.hf s = { s with
            rs := { s.rs with intake := .receiving { f.gapped with expected := f.hf } }, sc := enterGapped k s.sc } := by
          simp [filledTo, Nat.ne_of_lt hx]
        rw [this]
        rw [if_pos (.inl hx)] at e1
        cases e1
        refine runWork_margins_begin (s := { s with
            rs := { s.rs with intake := .receiving { f.gapped with expected := f.hf } }, sc := enterGapped k s.sc })
          (f := { f.gapped with expected := f.hf }) (by simpa using h1) rfl h3 h4 h5
          (Nat.le_refl _) { f.gapped with expected := f.hf } (enterGapped k s.sc) ?_
        split
        · rw [enterGapped_twice]; rfl
        · rfl
      · rw [show max f.expected f.hf = f.expected by omega]
        have : filledTo f k f.expected s = s := by simp [filledTo]
        rw [this]
        have hf1 : { f1 with expected := f.expected } = f1 := by
          split at e1 <;> (simp only [Prod.mk.injEq] at e1; rw [e1.1]; try rfl)
        rw [hf1]
        exact runWork_margins_begin h1 h2 h3 h4 h5 (by omega) f1 sc1 (by rw [e1]; simp [hx])
    have hw : sc1.write = none := by
      split at e1 <;> simp only [Prod.mk.injEq] at e1 <;> rw [e1.2] <;> simp [h1]
    refine ⟨fun b bs hc => ?_, fun hc => ?_⟩
    · have e : advance s = receivingWith { f1 with expected := max f.expected f.hf } (.margins sent.isNone bs)
          { sc1 with write := some (marginBurst g k f.depth f.margin b.1 b.2) } s := by
        unfold advance
        rw [key.1 b bs hc]
        cases bs <;> rfl
      rw [e]
      exact finish_end _
    · have e : advance s = advance { s with
          rs := { s.rs with
            intake := .receiving { f1 with expected := max f.expected f.hf }, work := .margins sent.isNone [] }
          sc := sc1 } := by
        conv => lhs; unfold advance
        rw [key.2 hc]
        conv => rhs; unfold advance
        rw [runWork_margins (i := sent.isNone) rfl]
      rw [e]
      exact advance_filed hw rfl

end Sys2Proof.Machine
end

