-- ==== Sys2Proof/Laws/Sets.lean ====
section
/-! SUPPORT. What the provers cite about the card path: all that ending a set and BATCH END can do (R125, R127), the serving of
the backlog one item at a time (R118), and the effect that comes when nothing but a card is left (R138). -/

namespace Sys2Proof.Machine

/-! ### Ending a set (R125, R127) -/

/-- The state with one set record changed, items behind the backlog, and an event of R96 taken. -/
def withRecord (n : Nat) (r : SetRecord) (items : List BacklogItem) (s : State) : State :=
  { s with
    sau := { s.sau with sets := s.sau.sets.set n r, backlog := s.sau.backlog ++ items }
    sc := { s.sc with askAgain := true } }

theorem changeSet_withRecord (n : Nat) (r : SetRecord) (s : State) : changeSet n r s = withRecord n r [] s := by
  simp [changeSet, putSet, withRecord]

theorem closeSet_cases (n : Nat) (b : Bool) (s : State) :
    (setCards (setAt s.sau n) = [] ∧ closeSet n b s = withRecord n .blank [] s)
    ∨ (setCards (setAt s.sau n) ≠ []
      ∧ closeSet n b s = withRecord n { setAt s.sau n with state := .closed, short := b } [.set n] s) := by
  unfold closeSet
  by_cases h : setCards (setAt s.sau n) = []
  · exact .inl ⟨h, by simp [h, emptySet, changeSet_withRecord]⟩
  · exact .inr ⟨h, by simp [h, joinBacklog, changeSet_withRecord, withRecord]⟩

/-- SET_SHORT of the record `n` that ends short with key `k` (R125). -/
def shortNotice (n roll ordinal : Nat) (k : DrawingKey) (r : SetRecord) : Notice :=
  setNotice .setShort roll ordinal (some k) (lowestMissing r) n (sheetsMissing r)

/-- What ending a set can do (R125). -/
theorem endSet_cases (n roll ordinal : Nat) (s : State) : ∃ r items, EndedAs s.mu n (setAt s.sau n) r items
    ∧ ((((setAt s.sau n).title = none ∨ setComplete (setAt s.sau n) = true)
        ∧ endSet n roll ordinal s = withRecord n r items s)
      ∨ ∃ x, (setAt s.sau n).title = some x ∧ setComplete (setAt s.sau n) = false
        ∧ endSet n roll ordinal s
          = raiseNotice (shortNotice n roll ordinal x.key (setAt s.sau n)) (withRecord n r items s)) := by
  unfold endSet
  rcases ht : (setAt s.sau n).title with _ | x
  · exact ⟨_, _, .noKey ht, .inl ⟨.inl rfl, by simp only [ht, emptySet, changeSet_withRecord]⟩⟩
  · by_cases hc : setComplete (setAt s.sau n) = true
    · rcases closeSet_cases n false s with ⟨hn, e⟩ | ⟨hn, e⟩
      · exact ⟨_, _, .allSpilled x ht (.inl hc) hn, .inl ⟨.inr hc, by simp only [ht, hc, if_true, e]⟩⟩
      · exact ⟨_, _, .complete x ht hc hn, .inl ⟨.inr hc, by simp only [ht, hc, if_true, e]⟩⟩
    · have hf : setComplete (setAt s.sau n) = false := by simpa using hc
      cases hs : (classAt s.mu x.cls).short with
      | hold =>
        exact ⟨_, _, .held x ht hf hs, .inr ⟨x, rfl, hf, by
          simp only [ht, hf, hs, Bool.false_eq_true, if_false, changeSet_withRecord, shortNotice]⟩⟩
      | send =>
        rcases closeSet_cases n true s with ⟨hn, e⟩ | ⟨hn, e⟩
        · exact ⟨_, _, .allSpilled x ht (.inr hs) hn, .inr ⟨x, rfl, hf, by
            simp only [ht, hf, hs, Bool.false_eq_true, if_false, e, shortNotice]⟩⟩
        · exact ⟨_, _, .sent x ht hf hs hn, .inr ⟨x, rfl, hf, by
            simp only [ht, hf, hs, Bool.false_eq_true, if_false, e, shortNotice]⟩⟩

/-- The SAU after BATCH END has been carried out up to its marker's joining the backlog. -/
def batchSau (sets : List SetRecord) (items : List BacklogItem) (sau : Sau) : Sau :=
  { sau with
    sets := sets
    passMode := false
    groupClosed := if groupState sau = .collecting then true else sau.groupClosed
    backlog := sau.backlog ++ items ++ (if groupState sau = .collecting then [.group] else []) ++ [.marker] }

/-- R127 steps 2 to 4. -/
theorem batchTail (s : State) :
    joinBacklog .marker
      (if groupState (setPassMode false s).sau = .collecting then closeGroup (setPassMode false s)
        else setPassMode false s)
    = { s with sau := batchSau s.sau.sets [] s.sau } := by
  have : groupState (setPassMode false s).sau = groupState s.sau := rfl
  rw [this]
  by_cases h : groupState s.sau = .collecting <;> simp [h, joinBacklog, closeGroup, setPassMode, batchSau]

/-- What BATCH END can do up to its marker's joining the backlog (R127). -/
theorem endBatch_cases (t : Target) (s : State) : ∃ sets items again, OpenSetEnded s sets items
    ∧ (((∀ n, currentSet s.sau = some n → (setAt s.sau n).title = none ∨ setComplete (setAt s.sau n) = true)
        ∧ endBatch t s = { s with sau := batchSau sets items s.sau, sc := { s.sc with askAgain := again } })
      ∨ ∃ n x, currentSet s.sau = some n ∧ (setAt s.sau n).title = some x ∧ setComplete (setAt s.sau n) = false
        ∧ endBatch t s = raiseNotice (shortNotice n t.roll t.ordinal x.key (setAt s.sau n))
          { s with sau := batchSau sets items s.sau, sc := { s.sc with askAgain := again } }) := by
  unfold endBatch OpenSetEnded
  simp only [batchTail]
  rcases hc : currentSet s.sau with _ | n
  · exact ⟨_, _, s.sc.askAgain, ⟨rfl, rfl⟩, .inl ⟨by simp, rfl⟩⟩
  · obtain ⟨r, items, he, h⟩ := endSet_cases n t.roll t.ordinal s
    refine ⟨_, items, true, ⟨r, he, rfl⟩, ?_⟩
    have hb : batchSau (withRecord n r items s).sau.sets [] (withRecord n r items s).sau
        = batchSau (s.sau.sets.set n r) items s.sau := by
      have hg : groupState (withRecord n r items s).sau = groupState s.sau := rfl
      simp only [batchSau, hg, List.append_nil]
      rfl
    rcases h with ⟨h, e⟩ | ⟨x, hx, hf, e⟩
    · exact .inl ⟨by rintro m hm; cases hm; exact h, by simp only [e, hb]; rfl⟩
    · refine .inr ⟨n, x, rfl, hx, hf, ?_⟩
      simp only [e, raiseNotice_sau, hb]
      by_cases hl : s.fli.notices.length < Config.noticePlaces <;> simp only [raiseNotice, withRecord, hl, if_true, if_false]

/-! ### The oldest HELD record (R119, R126, R128) -/

/-- What the search for the oldest HELD record can answer: none admitted, or an admitted one of the earliest opening order. -/
theorem oldestHeld_cases (p : Nat → SetRecord → Bool) (l : List SetRecord) : ∀ i : Nat,
    (oldestHeld p i l = none
      ∧ ∀ j, j < l.length → (l.getD j .blank).state = .held → p (i + j) (l.getD j .blank) = false)
    ∨ ∃ n, n < l.length ∧ oldestHeld p i l = some ((l.getD n .blank).opening.getD 0, i + n)
      ∧ (l.getD n .blank).state = .held ∧ p (i + n) (l.getD n .blank) = true
      ∧ ∀ j, j < l.length → (l.getD j .blank).state = .held → p (i + j) (l.getD j .blank) = true →
          (l.getD n .blank).opening.getD 0 ≤ (l.getD j .blank).opening.getD 0 := by
  induction l with
  | nil => exact fun i => .inl ⟨rfl, by simp⟩
  | cons r rs ih =>
    intro i
    have next : ∀ j, i + 1 + j = i + (j + 1) := by omega
    have split : ∀ {q : Nat → Prop}, q 0 → (∀ j, j < rs.length → q (j + 1)) → ∀ j, j < (r :: rs).length → q j := by
      rintro q h0 hs (_ | j) hj
      · exact h0
      · exact hs j (by simpa using hj)
    unfold oldestHeld
    by_cases hr : (r.state == .held && p i r) = true
    · obtain ⟨hh, hp⟩ : r.state = .held ∧ p i r = true := by simpa using hr
      right
      rcases ih (i + 1) with ⟨e, hn⟩ | ⟨n, hl, e, h1, h2, h3⟩
      · refine ⟨0, by simp, by simp [hr, e], hh, hp, split (by simp) fun j hj a b => ?_⟩
        have := hn j hj a
        rw [next] at this
        simp_all
      · by_cases ho : (rs.getD n .blank).opening.getD 0 < r.opening.getD 0
        · refine ⟨n + 1, by simpa using hl, by rw [if_pos hr, e, next]; simp only; rw [if_pos ho]; rfl, h1, by rw [← next]; exact h2, ?_⟩
          exact split (fun _ _ => Nat.le_of_lt ho) fun j hj a b => h3 j hj a (by rw [next]; exact b)
        · refine ⟨0, by simp, by rw [if_pos hr, e]; simp only; rw [if_neg ho]; rfl, hh, hp, ?_⟩
          exact split (fun _ _ => Nat.le_refl _) fun j hj a b =>
            Nat.le_trans (Nat.le_of_not_lt ho) (h3 j hj a (by rw [next]; exact b))
    · rw [if_neg hr]
      rcases ih (i + 1) with ⟨e, hn⟩ | ⟨n, hl, e, h1, h2, h3⟩
      · refine .inl ⟨e, split (fun a => ?_) fun j hj a => by rw [← next]; exact hn j hj a⟩
        have a : r.state = .held := a
        simpa [a] using hr
      · refine .inr ⟨n + 1, by simpa using hl, by rw [e, next]; rfl, h1, by rw [← next]; exact h2,
          split (fun a b => ?_) fun j hj a b => h3 j hj a (by rw [next]; exact b)⟩
        have a : r.state = .held := a
        have b : p i r = true := b
        simp [a, b] at hr

/-! ### Serving the backlog (R118) -/

theorem placeItem_backlog (x : BacklogItem) (s : State) : (placeItem x s).sau.backlog = s.sau.backlog := by
  unfold placeItem
  split
  · simp [placeSet, emptySet, placeJob, takeJob, changeSet, putSet, enqueue]
  · simp [placeGroup, placeJob, takeJob, enqueue]
  · unfold placeSpill; simp only; split <;> simp [placeJob, takeJob, enqueue, putSet]
  · unfold placeMarker; simp only; split <;> simp [enqueue]

/-- With nothing in the backlog, or no entry free, nothing is placed. -/
theorem drainBacklog_none {s : State} (h : s.sau.backlog = [] ∨ entryFree s = false) : drainBacklog s = s := by
  unfold drainBacklog
  cases s.sau.backlog.length with
  | zero => rfl
  | succ n =>
    unfold serveBacklog
    rw [if_neg]
    rintro ⟨a, b⟩
    rcases h with h | h
    · exact a h
    · rw [h] at b; cases b

/-- Otherwise the head is placed, and the rest is served after it. -/
theorem drainBacklog_head {s : State} (h : s.sau.backlog ≠ []) (he : entryFree s = true) :
    drainBacklog s = drainBacklog (placeHead s) := by
  unfold drainBacklog
  obtain ⟨x, xs, hx⟩ := List.exists_cons_of_ne_nil h
  have e : (placeHead s).sau.backlog = xs := by
    unfold placeHead; rw [hx]; simp [placeItem_backlog]
  rw [e, hx]
  conv => lhs; unfold List.length serveBacklog
  rw [if_pos ⟨h, he⟩]

/-! ### A card boundary (R138) -/

/-- With nothing to place, to grant, to remove or to release, the next effect is the card of the boundary. -/
theorem settleStep_card {s : State} (h1 : CardsNext s) (h2 : NoRelease s) (h3 : markerReady s = false) :
    settleStep s = (boundaryCard s).map (fun c => openCard c.2.1 c.2.2 c.1) := by
  have a1 : ¬ (s.sau.backlog ≠ [] ∧ entryFree s = true) := by
    rintro ⟨a, b⟩
    rcases h1.backlog with h | h
    · exact a h
    · rw [h] at b; cases b
  have a2 : reservationGrant s = none := by
    unfold reservationGrant reservationWaiter
    cases hi : s.rs.intake with
    | waitReservation f => simp [h1.reservation f hi]
    | _ => rfl
  have a3 : slotGrant s = none := by
    unfold slotGrant slotAsker slotWaiter
    cases hi : s.rs.intake with
    | waitSlot f => rcases h1.slot f hi with h | h <;> cases hp : s.mu.purgeTag <;> simp_all
    | _ => cases s.mu.purgeTag <;> rfl
  have a4 : pressureFor s = none := by
    unfold pressureFor slotAsker slotWaiter
    cases hi : s.rs.intake with
    | waitSlot f => rcases h2 f hi with h | h | h <;> cases hp : s.mu.purgeTag <;> simp_all
    | _ => cases s.mu.purgeTag <;> rfl
  unfold settleStep settleCards
  rw [if_neg a1, a2, a3, h3, a4]

end Sys2Proof.Machine
end

