-- ==== Sys2Proof/Laws/Slots.lean ====
section
/-! SUPPORT. What the provers cite about slots and bursts: the Store Controller's own consequences leave the slots and an
active burst alone, and what follows from a change leaves every slot alone that is neither FILED nor QUEUED (R90 to R92, R99). -/

namespace Sys2Proof.Machine

/-! ### The Store Controller's own consequences (R99 to R105) -/

@[simp] theorem grantBursts_slots (sc : Sc) : (grantBursts sc).slots = sc.slots := by
  unfold grantBursts
  repeat' split
  all_goals rfl
@[simp] theorem storeIdle_slots (sc : Sc) : (storeIdle sc).slots = sc.slots := by
  unfold storeIdle
  repeat' split
  all_goals simp
@[simp] theorem storeSettle_slots (sc : Sc) : (storeSettle sc).slots = sc.slots := by
  unfold storeSettle
  repeat' split
  all_goals simp
@[simp] theorem storeAfter_slotAt (sc : Sc) (n : Nat) : slotAt (storeAfter sc) n = slotAt sc n := by
  simp [storeAfter, slotAt]

/-- Every burst that stands is active. -/
structure BurstsActive (sc : Sc) : Prop where
  read  : ∀ r, sc.read = some r → r.active = true
  write : ∀ w, sc.write = some w → w.active = true

theorem grantRead_active {sc : Sc} (h : BurstsActive sc) : (grantRead sc).read = sc.read := by
  unfold grantRead
  cases hr : sc.read with
  | none => rfl
  | some r => have := h.read r hr; cases r; simp_all

theorem grantWrite_active {sc : Sc} (h : BurstsActive sc) : (grantWrite sc).write = sc.write := by
  unfold grantWrite
  cases hw : sc.write with
  | none => rfl
  | some w => have := h.write w hw; cases w; simp_all

theorem grantBursts_active {sc : Sc} (h : BurstsActive sc) :
    (grantBursts sc).read = sc.read ∧ (grantBursts sc).write = sc.write := by
  have ew := grantWrite_active h
  have er := grantRead_active h
  unfold grantBursts
  cases hw : sc.write <;> cases hr : sc.read <;> simp only
  · exact ⟨hr, hw⟩
  · exact ⟨er.trans hr, hw⟩
  · exact ⟨hr, ew.trans hw⟩
  · rename_i w r
    split
    · rw [if_pos (by rw [h.write w hw]; rfl)]
      exact ⟨hr, hw⟩
    · exact ⟨er.trans hr, ew.trans hw⟩

/-- R99: bursts that are active stand while the Store Controller goes on. -/
theorem storeSettle_active {sc : Sc} (h : BurstsActive sc) :
    (storeSettle sc).read = sc.read ∧ (storeSettle sc).write = sc.write := by
  have idle : ∀ sc : Sc, BurstsActive sc → (storeIdle sc).read = sc.read ∧ (storeIdle sc).write = sc.write := by
    intro sc h
    unfold storeIdle
    repeat' split
    · exact grantBursts_active h
    all_goals exact ⟨rfl, rfl⟩
  unfold storeSettle
  repeat' split
  all_goals first | exact ⟨rfl, rfl⟩ | exact idle _ ⟨h.read, h.write⟩

/-! ### A slot that is neither FILED nor QUEUED -/

/-- The slot `n` is as `x`, which is neither FILED nor QUEUED. -/
structure SlotStands (n : Nat) (x : Slot) (sc : Sc) : Prop where
  same      : slotAt sc n = x
  notFiled  : x.inState .filed = false
  notQueued : x.inState .queued = false

/-- The slots alone decide. -/
theorem SlotStands.slots {n : Nat} {x : Slot} {a b : Sc} (h : SlotStands n x a) (e : b.slots = a.slots) :
    SlotStands n x b :=
  ⟨by have := h.same; unfold slotAt at this ⊢; rw [e]; exact this, h.notFiled, h.notQueued⟩

theorem SlotStands.moveSlot {n : Nat} {x : Slot} {sc : Sc} (h : SlotStands n x sc) (m : Nat) {before : ChipState}
    (hb : x.inState before = false) (after : ChipState) (f : Chip → Chip) :
    SlotStands n x (moveSlot m before after f sc) := by
  refine ⟨?_, h.notFiled, h.notQueued⟩
  have hs := h.same
  unfold Machine.moveSlot
  split
  · rename_i st c hm
    split
    · rename_i hst
      have hne : m ≠ n := by
        rintro rfl
        rw [hm] at hs
        subst hs; subst hst
        cases st <;> simp [Slot.inState] at hb
      unfold setSlot slotAt
      unfold slotAt at hs
      rw [← hs]
      simp [List.getD, hne]
    · exact hs
  · exact hs
  · exact hs

theorem SlotStands.queueSlots {n : Nat} {x : Slot} (id : Nat) (cards : List CardPos) : ∀ {sc : Sc} (pos : Nat),
    SlotStands n x sc → SlotStands n x (queueSlots id pos cards sc) := by
  induction cards with
  | nil => exact fun _ h => h
  | cons c cs ih => exact fun pos h => ih (pos + 1) (h.moveSlot c.slot h.notFiled ..)

theorem SlotStands.placeJob {n : Nat} {x : Slot} {s : State} (h : SlotStands n x s.sc) (j : Job) :
    SlotStands n x (placeJob j s).sc := h.queueSlots j.id j.cards 1

theorem SlotStands.placeHead {n : Nat} {x : Slot} {s : State} (h : SlotStands n x s.sc) :
    SlotStands n x (placeHead s).sc := by
  unfold Machine.placeHead
  split
  · exact h
  · unfold placeItem
    split
    · exact SlotStands.slots (SlotStands.placeJob (s := { s with sau := _ }) h _) rfl
    · exact SlotStands.slots (SlotStands.placeJob (s := { s with sau := _ }) h _) rfl
    · unfold placeSpill
      simp only
      split
      · exact SlotStands.slots (SlotStands.placeJob (s := { s with sau := _ }) h _) rfl
      · exact h
    · unfold placeMarker
      simp only
      split <;> exact h

theorem pump_slots (s : State) : (pump s).sc.slots = s.sc.slots := by
  unfold pump
  repeat' split
  all_goals (try unfold pumpChip)
  all_goals (try unfold nextStep)
  all_goals (repeat' split)
  all_goals rfl

theorem SlotStands.openCard {n : Nat} {x : Slot} {s : State} (h : SlotStands n x s.sc) (k : CardKind) (a : Nat) :
    SlotStands n x (openCard k a s).sc := by
  unfold Machine.openCard
  refine SlotStands.slots ?_ (pump_slots _)
  show SlotStands n x (openSlot k s.sc)
  unfold openSlot
  split
  · exact h.moveSlot _ h.notQueued ..
  all_goals exact h

/-- With nothing waiting, what follows from a change leaves such a slot alone. -/
theorem SlotStands.settleStep {n : Nat} {x : Slot} {s t : State} (h : SlotStands n x s.sc)
    (hw : s.rs.intake.waiting = false) (e : settleStep s = some t) : SlotStands n x t.sc := by
  have hr : reservationWaiter s = none := by
    unfold reservationWaiter; cases hi : s.rs.intake <;> simp_all [Intake.waiting]
  have hs : slotWaiter s = none := by
    unfold slotWaiter; cases hi : s.rs.intake <;> simp_all [Intake.waiting]
  rcases settleStep_cases e with ⟨_, _, rfl⟩ | ⟨f, hf, rfl⟩ | ⟨f, m, hf, rfl⟩ | e
  · exact h.placeHead
  · simp [reservationGrant, hr] at hf
  · simp [slotGrant, slotAsker, hs] at hf
  · have hp : pressureFor s = none := by simp [pressureFor, slotAsker, hs]
    unfold settleCards at e
    rw [hp] at e
    split at e
    · simp_all
    · cases e
      exact SlotStands.slots h (by simp [removeMarker, noteEntryFreed])
    · simp_all
    · simp only [boundaryCard, Option.map_eq_some_iff] at e
      obtain ⟨⟨u, k, a⟩, hc, rfl⟩ := e
      split at hc
      · obtain ⟨cs, rfl⟩ := chooseCard_cs hc
        exact SlotStands.openCard (s := { s with cs := cs }) h k a
      · cases hc

/-- From a state with nothing waiting that the effects go on from, the intake and such a slot stand at the command's end. -/
theorem finish_reached_slot {n : Nat} {t r : State} {k : Nat}
    (hk : r = { settleLoop k t with sc := storeAfter (settleLoop k t).sc }) (hw : t.rs.intake.waiting = false)
    (hm : t.sc.mode = .active) (h1 : (slotAt t.sc n).inState .filed = false)
    (h2 : (slotAt t.sc n).inState .queued = false) :
    (finish r).rs = t.rs ∧ slotAt (finish r).sc n = slotAt t.sc n := by
  have key := settleLoop_keeps (s := t)
    (P := fun u => u.rs = t.rs ∧ u.sc.mode = .active ∧ SlotStands n (slotAt t.sc n) u.sc)
    (fun u v h hv => by
      have hw' : u.rs.intake.waiting = false := by rw [h.1]; exact hw
      exact ⟨(settleStep_rs hw' hv).trans h.1, (settleStep_mode hv).trans h.2.1, h.2.2.settleStep hw' hv⟩)
    k ⟨rfl, hm, rfl, h1, h2⟩
  have hf : meetHeader r = r := by
    unfold meetHeader
    rw [if_neg (by rw [hk]; simp [key.2.1])]
  unfold finish
  rw [hf, channel_rs, channel_mode, hk]
  exact ⟨key.1, by simpa using key.2.2.same⟩

/-! ### Allocation (R94) -/

theorem bankSlots_eq {a b : Sc} (h : a.slots = b.slots) (x : Nat) : bankSlots a x = bankSlots b x := by
  simp only [bankSlots, h]

theorem bestBank_eq {a b : Sc} (h : a.slots = b.slots) (l : List Nat) : bestBank a l = bestBank b l := by
  induction l with
  | nil => rfl
  | cons x xs ih =>
    unfold bestBank
    rw [ih]
    cases bestBank b xs with
    | none => rfl
    | some c => simp only [freeInBank, bankSlots_eq h]; rfl

/-- R94: the slot chosen depends on the slots and the banks enabled alone. -/
theorem chooseSlot_eq {a b : Sc} (h : a.slots = b.slots) (g : a.banks = b.banks) (card : Option Nat) :
    chooseSlot a card = chooseSlot b card := by
  have e : candidateBanks a = candidateBanks b := by
    simp only [candidateBanks, freeInBank, bankSlots_eq h, g]; rfl
  unfold chooseSlot
  rw [e, bestBank_eq h]
  cases bestBank b (excludeBank (card.map bankOf) (candidateBanks b)) with
  | none => rfl
  | some x => simp only [bankSlots_eq h]

end Sys2Proof.Machine
end

