-- ==== Sys2Proof/WellFormed.lean ====
section
/-! DEFINITION. Which commands can come from outside the part. A meaning does not need its command to be
well formed: the checks say what the links and the configuration memory can carry. -/

namespace Sys2Proof

/-- The length field of a record has two bytes (11.1), so a payload holds at most 65535 bytes. -/
def LinkRecord.fits (r : LinkRecord) : Bool := r.payload.length ≤ 65535

/-- The configuration memory holds 16 words (R177). -/
def configFits (words : List Word16) : Bool := words.length ≤ Config.configWords

/-- A command that can come from outside the part. -/
def Instr.wellFormed : Instr → Bool
  | .loadingEnd words => configFits words
  | .recordReceived r => r.fits
  | .recorderMessageDropped r => r.fits
  | _ => true

end Sys2Proof
end

