-- ==== Sys2Proof/Tests/Slice0.lean ====
section
/-! SUPPORT. Tests: the well-formedness checks, the worked examples of the manual, and for every statement of
Certificates/Slice0/Obligations.lean that has hypotheses a state that meets them. -/

namespace Sys2Proof.Tests

open Sys2Proof Sys2Proof.Machine

-- The tests are checked one after another: at the same time, each on a thread of its own, they take twice the memory.
set_option Elab.async false

/-! ### Well-formedness and decoding -/

theorem test_config_of_17_words_refused : (Instr.loadingEnd (List.replicate 17 0)).wellFormed = false := by decide
theorem test_config_of_16_words_fits : (Instr.loadingEnd (List.replicate 16 0)).wellFormed = true := by decide
theorem test_long_inbound_record_refused :
    (Instr.recordReceived { kind := 2, payload := List.replicate 65536 0, check := 0 }).wellFormed = false := by
  show decide ((List.replicate 65536 (0 : Byte)).length ≤ 65535) = false
  rw [List.length_replicate]; rfl
theorem test_long_recorder_record_refused :
    (Instr.recorderMessageDropped { kind := 0xD0, payload := List.replicate 65536 0, check := 0 }).wellFormed = false := by
  show decide ((List.replicate 65536 (0 : Byte)).length ≤ 65535) = false
  rw [List.length_replicate]; rfl
theorem test_no_word_spells_a_command : decodeTableWord 8 1 = none := rfl

/-! ### States to test on -/

/-- The part RUNNING with the link UP. -/
def base : State :=
  let s := State.reset
  { s with
    fli := { s.fli with link := .up, holdTold := false }
    mu := { s.mu with startup := .running }
    sc := { s.sc with timer := some 8 } }

def withHead (c : Content) (s : State) : State :=
  { s with fli := { s.fli with fifo := { content := c, marks := [] } :: s.fli.fifo } }
def withMgmt (b : MgmtBody) (s : State) : State := withHead (.mgmt 7 b) s
def withFilm (r : FilmRecord) (s : State) : State := withHead (.film r) s
def withMode (m : StoreMode) (s : State) : State := { s with sc := { s.sc with mode := m } }
def withSlot (n : Nat) (v : Slot) (s : State) : State := { s with sc := setSlot n v s.sc }
def withSet (n : Nat) (r : SetRecord) (s : State) : State := { s with sau := putSet n r s.sau }
def withQueue (q : List Entry) (s : State) : State := { s with cs := { s.cs with queue := q } }
def withIntake (i : Intake) (s : State) : State := setIntake i s

def header : Header := { roll := 40, ordinal := 7, ps := 70, db := 47, wf := 4, hf := 2 }
def keyOf (b : Byte) : DrawingKey := { number := b :: List.replicate 15 0x20, revision := none }
def entryOf (roll first count : Nat) (key : DrawingKey) (sheet cls rf : Nat) (same superseded : Bool) : IndexEntry :=
  { roll := roll, first := first, count := count, key := key, firstSheet := sheet, sheetCount := 3, sameSheet := same
    superseded := superseded, cls := cls, rf := rf }
def chip0 : Chip := { owner := .openFrame, roll := 40, ordinal := 7, depth := 8, re := 240, flags := {} }
/-- The geometry of Case 1 of 3.9, and of a frame of 4 columns and 2 lines. -/
def case1 : Geometry := makeGeometry 70 4600 3200 300 240 100 .shrink .r0 .r90
def small : Geometry := makeGeometry 70 4 2 300 240 100 .shrink .r0 .r90
def frame : FrameCtx :=
  { roll := 40, ordinal := 7, wf := 4, hf := 2, entry := none, dest := .group, flags := {}, depth := 8, margin := 0
    slot := some 3, expected := 0, records := 0, gap := false, carry := none }
/-- A frame RECEIVING in slot 3. -/
def receiving (f : FrameCtx) (s : State) : State :=
  let t := withSlot 3 (.held .filling chip0) s
  { t with rs := { t.rs with intake := .receiving f, geometry := some small, tone := some identityTone } }
def job0 : Job :=
  { id := 5, kind := .set, cls := 2, key := some (keyOf 0x41), sheetCount := some 2
    cards := [{ slot := 3, sheet := 1, roll := 40, ordinal := 7 }, { slot := 4, sheet := 2, roll := 40, ordinal := 8 }]
    copies := 2, retries := 1, short := false, spill := false, nextPos := 0, nextCopy := 1 }
def card0 : Card :=
  { state := .awaiting, kind := .chip 5 1 1 3, attempt := 1, tray := 9, nextLine := 2912, buffer := none }
/-- A card of `job0` in flight from slot 3. -/
def inFlight (j : Job) (c : Card) (s : State) : State :=
  let t := withQueue [.job j] (withSlot 3 (.held .recording chip0) s)
  { t with
    cs := { t.cs with current := some j.id }
    cli := { t.cli with ready := true, card := some c, timer := if c.state = .awaiting then some 2000 else none } }
def openSetRecord : SetRecord := { SetRecord.blank with state := .opened, opening := some 0 }
def shortRecord (st : SetState) (cls : Nat) : SetRecord :=
  { SetRecord.blank with
    state := st, opening := some 0, title := some { key := keyOf 0x41, sheetCount := 3, cls := cls }
    sheets := .filed 3 40 7 {} :: List.replicate 63 .empty }
def completeRecord : SetRecord :=
  { SetRecord.blank with
    state := .opened, opening := some 0, title := some { key := keyOf 0x41, sheetCount := 1, cls := 2 }
    sheets := .filed 3 40 7 {} :: List.replicate 63 .empty }
def fullQueue (s : State) : State := withQueue (List.replicate 32 .marker) s
def burst0 : WriteBurst := { slot := 3, axis := .rows, first := 1, lines := [[1, 2, 3]], active := true, aborted := false }
def withWrite (b : WriteBurst) (s : State) : State := { s with sc := { s.sc with write := some b } }

theorem not_receiving (f : FrameCtx) : base.rs.intake ≠ .receiving f := nofun
theorem film_not_receiving (r : FilmRecord) (f : FrameCtx) : (withFilm r base).rs.intake ≠ .receiving f := nofun
theorem loss_not_receiving (k : FilmKind) (f : FrameCtx) : (withHead (.loss k) base).rs.intake ≠ .receiving f := nofun

/-! ### Worked examples -/

/-- 3.9.1, Table 3-5. -/
theorem test_geometry_case_1 :
    (case1.scale, case1.wo, case1.ho, case1.xoff, case1.yoff, case1.re, case1.outcome)
      = (57344, 4025, 2800, 35, 56, 240, .complete) := by decide
/-- 3.9.2, Table 3-7. -/
theorem test_geometry_case_2 :
    (let g := makeGeometry 70 5000 3600 300 240 100 .shrink .r0 .r90
     (g.scale, g.wo, g.ho, g.xoff, g.yoff, g.re, g.outcome)) = (53011, 4044, 2912, 26, 0, 260, .reduced) := by decide
/-- Table 3-6: columns 0 and 1 both cover relative column 0, and column 2 covers column 1. -/
theorem test_columns_covered :
    (spanLow 0 57344 0, spanHigh 0 57344 0, spanHigh 0 57344 1, spanLow 0 57344 2, spanHigh 0 57344 7)
      = (0, 0, 0, 1, 6) := by decide

/-- The index of Table 1-13. -/
def table113 : State :=
  { base with
    mu := { base.mu with
      generation := 41
      index :=
        [(0, entryOf 12 5 3 (keyOf 0x50) 1 2 240 false false), (1, entryOf 12 8 1 (keyOf 0x51) 2 2 240 false true),
         (3, entryOf 12 6 4 (keyOf 0x45) 1 5 160 false false), (4, entryOf 12 14 3 (keyOf 0x50) 2 2 300 true false)] } }
/-- What Table 1-14 gives: the sheet, the class and Rf of an indexed frame, or whether it is superseded. -/
def brief (roll ordinal : Nat) : Option (Nat × Nat × Nat) :=
  match classify table113.mu { header with roll := roll, ordinal := ordinal } with
  | .indexed _ m => some (m.sheet, m.cls, m.rf)
  | .superseded p _ => some (p, 0, 0)
  | .leader | .unindexed _ => none
/-- Table 1-14. -/
theorem test_table_1_14 :
    [brief 12 3, brief 12 6, brief 12 8, brief 12 9, brief 12 10, brief 12 15, brief 13 5]
      = [none, some (2, 2, 240), some (1, 0, 0), some (4, 5, 160), none, some (2, 2, 300), none] := by decide
/-- Table 1-15, step g. -/
theorem test_describe_step_g :
    (table113.mu.index.length, highestValid table113.mu, lowestInvalidFrom 0 table113.mu.index) = (4, some 4, some 2) := by
  decide
/-- Table 1-15, step h: the fence adds 1 to the generation and leaves the later of two writes. -/
theorem test_fence_step_h :
    (let m := fenceTables { table113.mu with
       staging :=
         [.index 2 (some (entryOf 21 30 2 (keyOf 0x53) 1 3 240 false false)),
          .index 2 (some (entryOf 12 10 1 (keyOf 0x53) 1 3 240 false false)), .index 1 none] }
     (m.generation, m.staging.length, (indexAt m 2).map IndexEntry.roll, indexAt m 1)) = (42, 0, some 12, none) := by
  decide

/-- Table 5-3, steps 3, 6, 7: enter, equal to leave, above leave. -/
theorem test_density_steps :
    (nextDensity base.dm 47, nextDensity { base.dm with state := .thin } 64, nextDensity { base.dm with state := .thin } 65)
      = (.thin, .thin, .normal) := by decide

/-- Table 6-8: slots 0..2 of bank 0, three of bank 1, one of bank 2 and two of bank 3 FREE. -/
def table68 : Sc :=
  { base.sc with
    slots := (List.range 512).map (fun n =>
      if n ∈ [0, 1, 2, 128, 140, 150, 300, 400, 401] then .free else .held .filed chip0) }
/-- Table 6-8, steps 1 and 3; and with no card in flight the lowest bank of those with most FREE slots. -/
theorem test_allocation_steps :
    chooseSlot table68 (some 130) = some 0
      ∧ chooseSlot (setSlot 0 (.held .filed chip0) table68) (some 130) = some 1
      ∧ chooseSlot (setSlot 0 (.held .filed chip0) table68) none = some 128 := by decide +kernel

/-- Table 6-9, due moments 10 and 11: the count goes to 8, and the next one begins a forced refresh. -/
theorem test_due_moments :
    (let s := withWrite burst0 { base with sc := { base.sc with deferral := 7 } }
     let t := refreshDueStep s.sc
     (t.deferral, t.forced, (refreshDueStep t).deferral, (refreshDueStep t).forced)) = (8, none, 8, some 1) := by decide

/-- 11.1, R180: a FRAME END of 2 lines is accepted, and with its check changed it is a check error. -/
theorem test_frame_end_accepted :
    arrival (sealRecord 3 [0, 2]) = .accepted (.film (.frameEnd 2))
      ∧ arrival { sealRecord 3 [0, 2] with check := (sealRecord 3 [0, 2]).check + 1 } = .checkError (some .frameEnd) 3 := by
  decide +kernel
/-- R168, R169: the 48th place asserts the FIFO input to HOLD, and a FIFO that falls to 16 withdraws it. -/
theorem test_hold_thresholds :
    (let places := List.replicate 47 { content := Content.film (.frameEnd 0), marks := [] }
     let f := pushPlace (.film (.frameEnd 0)) { base.fli with fifo := places }
     (f.holdFifo, (takeHead { f with fifo := f.fifo.drop 31 }).holdFifo, (takeHead { f with fifo := f.fifo.drop 30 }).holdFifo))
      = (true, false, true) := by decide

/-- The state that a command leads to. -/
def after (c : Instr) (s : State) : State :=
  match exec c s with
  | .next t => t
  | .fault _ | .refused _ => s

/-- R59, R83, R94: a thin header of an unindexed frame is RECEIVING in slot 0, with DENSITY_WARN of detail 47. -/
theorem test_header_taken :
    (let t := after .frameHeader (withFilm (.header header) base)
     ((t.fli.notices.map Notice.kind, t.fli.notices.map Notice.detail), (slotAt t.sc 0).inState .filling, t.dm.state))
      = (([.densityWarn], [47]), true, .thin) := by decide +kernel
/-- R65, R74: the first LINE of the frame asks for a burst in its slot. -/
theorem test_line_asks_for_burst :
    (after .line (withFilm (.line 0 [1, 2, 3, 4]) (receiving frame base))).sc.write.map WriteBurst.slot = some 3 := by
  decide +kernel
/-- R126, R125: START opens record 0, and END of a set with no frame empties it. -/
theorem test_start_and_end :
    (let t := after .start (withFilm (.target { kind := .start, roll := 1, ordinal := 1 }) base)
     let u := after .endTarget (withFilm (.target { kind := .endSet, roll := 1, ordinal := 2 }) t)
     (currentSet t.sau, currentSet u.sau, (setAt u.sau 0).state)) = (some 0, none, .empty) := by decide +kernel
/-- R127, R143, R163: BATCH END's marker is removed at once when nothing stands before it, with BATCH_DONE of batch 1. -/
theorem test_batch_done :
    (let t := after .batchEnd (withFilm (.target { kind := .batchEnd, roll := 1, ordinal := 1 }) base)
     (t.fli.notices.map Notice.detail, t.cli.batch, t.cs.queue)) = ([1], 2, []) := by decide +kernel
/-- R159: CARD ACCEPTED of copy 1 of 2 opens copy 2 under the next tray sequence. -/
theorem test_second_copy_opened :
    (let t := after (.cardAccepted 9) (inFlight job0 card0 base)
     (t.cli.card.map Card.kind, t.cli.card.map Card.tray, t.cli.card.map Card.state))
      = (some (.chip 5 1 2 3), some 2, some .sending) := by decide +kernel
/-- R157, R159, 9.10: a timeout below the captured retries + 1 opens attempt 2 under the same tray sequence. -/
theorem test_timeout_retried :
    (let t := after .responseTimerExpiry (inFlight job0 card0 base)
     (t.cli.card.map Card.attempt, t.cli.card.map Card.tray, t.fli.notices)) = (some 2, some 9, []) := by decide +kernel
/-- R177, R178: a memory with the marker and no usable word gives every default and no CONFIG_DEFAULTED. -/
theorem test_loading_end :
    (let t := after (.loadingEnd (0x3D62 :: List.replicate 15 0xFFFF)) State.reset
     (t.mu.startup, t.cli.timeout, t.mu.sticky.configDefaulted, t.sc.timer)) = (.running, 2000, false, some 8) := by
  decide +kernel
/-- R175, Table 11-5: bit 3 of the byte names STORE_LOST. -/
theorem test_status_clear :
    (Sticky.clear { overrun := true, storeLost := true } 0x08) = { overrun := true } := by decide

/-! ### Witnesses: the step, the reset, what every step keeps -/

theorem witness_StepKeepsCountsBounded :
    (∃ t, step { base with pending := [.refreshDue] } = .next t) ∧ LinkBounded { base with pending := [.refreshDue] }
      ∧ RepliesBounded { base with pending := [.refreshDue] } ∧ QueueBounded { base with pending := [.refreshDue] }
      ∧ DeferralBounded { base with pending := [.refreshDue] } :=
  ⟨⟨_, rfl⟩, ⟨by decide, by decide, by decide⟩, by unfold RepliesBounded; decide, by unfold QueueBounded; decide,
    by unfold DeferralBounded; decide⟩

def served : State := { withWrite burst0 base with pending := [.writeBurstServed] }

theorem witness_StepKeepsMemoryCanonical : MemoryCanonical served ∧ ∃ t, step served = .next t :=
  ⟨by unfold MemoryCanonical; decide, ⟨_, rfl⟩⟩

theorem witness_StepKeepsWritesFit : WritesFit served ∧ ∃ t, step served = .next t :=
  ⟨⟨fun w h => by cases h; decide, trivial, trivial⟩, ⟨_, rfl⟩⟩

theorem slots_of_base : ∀ n, n < 512 → slotAt base.sc n = .free := by decide +kernel

theorem witness_NumbersInRange : NumbersInRange { base with pending := [.linkUp] } :=
  ⟨by decide, by decide, by decide, by decide, by decide, by decide, by decide⟩

theorem witness_StepKeepsSlotsFollowBanks :
    SlotsFollowBanks { base with pending := [.linkUp] } ∧ NumbersInRange { base with pending := [.linkUp] }
      ∧ ∃ t, step { base with pending := [.linkUp] } = .next t := by
  refine ⟨⟨by decide +kernel, ?_, ?_⟩, witness_NumbersInRange, ⟨_, rfl⟩⟩
  · intro n h _
    show n / 128 < 4
    have : n < 512 := h
    omega
  · intro n h ho
    rw [show slotAt ({ base with pending := [.linkUp] } : State).sc n = .free from slots_of_base n h] at ho
    cases ho

def fenced : State :=
  { withMgmt .tableFence base with
    mu := { base.mu with staging := [.cls 3 { ClassEntry.powerOn with level := 0, depth := 3 }, .index 4095 none, .tone 7 255 9] }
    pending := [.tableFence] }

theorem witness_StepKeepsTables :
    ClassesStored fenced ∧ IndexRising fenced ∧ ListsShaped fenced ∧ ∃ t, step fenced = .next t := by
  refine ⟨⟨?_, ?_⟩, ⟨List.Pairwise.nil, nofun, ?_⟩, ⟨rfl, ⟨rfl, ?_⟩, rfl, ⟨rfl, ?_⟩⟩, ⟨_, rfl⟩⟩
  · intro c hc
    rw [List.eq_of_mem_replicate (show c ∈ List.replicate 16 ClassEntry.powerOn from hc)]
    exact ⟨by decide, .inl rfl⟩
  · intro w hw
    simp only [fenced, List.mem_cons, List.not_mem_nil, or_false] at hw
    rcases hw with rfl | rfl | rfl
    · exact Nat.zero_le 3
    · trivial
    · trivial
  · intro p e h
    simp only [fenced, List.mem_cons, List.not_mem_nil, or_false, reduceCtorEq, false_or, StagedWrite.index.injEq] at h
    rw [h.1]
    decide
  · intro t ht
    have : t ∈ identityTone :: inverseTone :: List.replicate 6 identityTone := ht
    simp only [List.mem_cons, List.mem_replicate] at this
    rcases this with rfl | rfl | ⟨_, rfl⟩ <;> simp [identityTone, inverseTone]
  · intro r hr
    rw [List.eq_of_mem_replicate (show r ∈ List.replicate 8 SetRecord.blank from hr)]
    rfl

theorem witness_StepKeepsMonitor :
    (let s := { withFilm (.header header) base with pending := [.frameHeader] }
     ThresholdsOrdered s ∧ ThinHasLast s ∧ ∃ t, step s = .next t) :=
  ⟨by unfold ThresholdsOrdered; decide, nofun, ⟨_, rfl⟩⟩

theorem witness_StepKeepsNumbersInRange :
    NumbersInRange { base with pending := [.linkUp] } ∧ ∃ t, step { base with pending := [.linkUp] } = .next t :=
  ⟨witness_NumbersInRange, ⟨_, rfl⟩⟩

theorem witness_StepKeepsTimerAwaits :
    (let s := { inFlight job0 card0 base with pending := [.responseTimerExpiry] }
     TimerAwaits s ∧ ∃ t, step s = .next t) :=
  ⟨by unfold TimerAwaits; decide, ⟨_, rfl⟩⟩

theorem witness_StepKeepsOneOpen :
    (let s := { withSet 7 openSetRecord (withFilm (.target { kind := .start, roll := 1, ordinal := 1 }) base) with
       pending := [.start] }
     OneOpen s ∧ ∃ t, step s = .next t) :=
  ⟨by unfold OneOpen; decide, ⟨_, rfl⟩⟩

/-! ### Witnesses: start-up, link state, the return channel -/

/-- The memory that does not answer, one with a wrong marker, one of 16 words with the marker. -/
theorem witness_LoadingEndHandsOver :
    State.reset.mu.startup = .loading ∧ ([] : List Word16).length < 16 ∧ ([0, 1] : List Word16).getD 0 0 ≠ 0x3D62
      ∧ 16 ≤ ((0x3D62 : Word16) :: List.replicate 15 0xFFFF).length
      ∧ ((0x3D62 : Word16) :: List.replicate 15 0xFFFF).getD 0 0 = 0x3D62 := by decide

def reply0 : Reply := { tag := 1, code := 0x48, result := .ok .none }
def sendingReply : State := { base with fli := { base.fli with sending := some .reply, replies := [reply0] } }
def sendingNotice : State :=
  { base with fli := { base.fli with sending := some .notice, notices := [plainNotice .linkLost 0] } }

def withSending (x : Sending) (s : State) : State := { s with fli := { s.fli with sending := some x } }
/-- A FIFO of so many places. -/
def holding (n : Nat) (s : State) : State :=
  { s with fli := { s.fli with fifo := List.replicate n { content := .film (.frameEnd 0), marks := [] } } }
def held (s : State) : State := { s with fli := { s.fli with holdTold := true, holdFifo := true } }

/-- A reply and a notice in sending; the 48th place, and a LINE that leaves 16, on a free channel and
on one that is sending. -/
theorem witness_ReturnChannelGoesOn :
    (State.reset.fli.link = .down ∧ sendingReply.fli.link = .up ∧ sendingReply.fli.sending = some .reply
      ∧ sendingReply.fli.replies = [reply0]
      ∧ sendingNotice.fli.link = .up ∧ sendingNotice.fli.sending = some .notice
      ∧ sendingNotice.fli.notices = [plainNotice .linkLost 0])
    ∧ (arrival (sealRecord 3 [0, 2]) = .accepted (.film (.frameEnd 2)) ∧ (holding 47 base).fli.link = .up
      ∧ (holding 47 base).fli.fifo.length = 47 ∧ (holding 47 base).fli.holdTold = false
      ∧ (holding 47 base).fli.sending = none ∧ (holding 47 sendingReply).fli.sending = some .reply)
    ∧ (let s := withFilm (.line 0 [1]) (held (holding 16 base))
       headLine s = some (0, [1]) ∧ s.rs.intake = .idle ∧ s.fli.headMarks = [] ∧ s.fli.fifo.length = 17
         ∧ s.sc.mode = .active ∧ s.fli.holdTold = true ∧ s.fli.sending = none ∧ s.fli.link = .up
         ∧ headLine (withSending .notice s) = some (0, [1])) := by decide +kernel

def withNotices (n : Nat) (s : State) : State :=
  { s with fli := { s.fli with notices := List.replicate n (plainNotice .linkError 0) } }
def waitingFrame : FrameCtx := { frame with slot := none }

/-- Link loss in each intake state: 31 and 32 notices held with no frame, 30 with one; the slot with no burst, with a waiting and
with an active one; and a reservation in the queue. -/
theorem witness_LinkLossAborts :
    base.fli.link = .up ∧ base.rs.intake = .idle ∧ (withNotices 31 base).fli.notices.length < 32
      ∧ 32 ≤ (withNotices 32 base).fli.notices.length
      ∧ (withIntake (.discarding .leader 1 2) base).rs.intake = .discarding .leader 1 2
      ∧ (withIntake (.waitTarget { kind := .batchEnd, roll := 1, ordinal := 2 }) base).rs.intake
          = .waitTarget { kind := .batchEnd, roll := 1, ordinal := 2 }
      ∧ (withIntake (.waitSlot waitingFrame) base).rs.intake = .waitSlot waitingFrame
      ∧ (withIntake (.waitReservation waitingFrame) (withQueue [.reservation] base)).cs.queue.any Entry.isReservation = true
      ∧ (let s := withNotices 30 (receiving frame base)
         s.fli.link = .up ∧ s.rs.intake = .receiving frame ∧ s.fli.notices.length < 31 ∧ frame.slot = some 3
           ∧ s.sc.write = none ∧ 3 < s.sc.slots.length ∧ bankOf 3 < s.sc.banks)
      ∧ (withWrite burst0 (receiving frame base)).sc.write = some burst0 ∧ burst0.active = true
      ∧ ({ burst0 with active := false } : WriteBurst).active = false := by decide +kernel

theorem witness_link_loss_no_frame (f : FrameCtx) :
    (withIntake (.discarding .leader 1 2) base).rs.intake ≠ .receiving f ∧ base.rs.intake ≠ .waitSlot f
      ∧ base.rs.intake ≠ .waitReservation f := ⟨nofun, nofun, nofun⟩

def full (s : State) : State :=
  { s with fli := { s.fli with fifo := List.replicate 64 { content := .film (.frameEnd 0), marks := [] } } }

theorem witness_RecordReceivedJoins :
    base.fli.link = .up ∧ arrival (sealRecord 3 [0, 2]) = .accepted (.film (.frameEnd 2)) ∧ base.fli.fifo.length < 64
      ∧ (full base).fli.link = .up ∧ 64 ≤ (full base).fli.fifo.length
      ∧ arrival { sealRecord 3 [0, 2] with check := (sealRecord 3 [0, 2]).check + 1 } = .checkError (some .frameEnd) 3
      ∧ arrival { sealRecord 0x90 [] with check := (sealRecord 0x90 []).check + 1 } = .checkError none 0
      ∧ arrival (sealRecord 0x90 []) = .unknown ∧ base.fli.notices.length < 32 := by decide +kernel

/-! ### Witnesses: tables -/

def stagedList (n : Nat) : List StagedWrite := List.replicate n (.tone 0 0 0)
def withStaged (n : Nat) (s : State) : State := { s with mu := { s.mu with staging := stagedList n } }
def goodIndex : List Byte := indexBytes (some (entryOf 12 5 3 (keyOf 0x50) 1 2 240 false false))

theorem witness_TableWriteChecksInOrder :
    mgmtHead (withMgmt (.tableWrite 4 0 []) base) = some (7, .tableWrite 4 0 [])
      ∧ mgmtHead (withMgmt (.tableWrite 1 4096 []) base) = some (7, .tableWrite 1 4096 [])
      ∧ mgmtHead (withMgmt (.tableWrite 2 16 []) base) = some (7, .tableWrite 2 16 [])
      ∧ mgmtHead (withMgmt (.tableWrite 3 2048 []) base) = some (7, .tableWrite 3 2048 [])
      ∧ mgmtHead (withMgmt (.tableWrite 1 4095 [2]) base) = some (7, .tableWrite 1 4095 [2])
      ∧ parseIndexContent [2] = none ∧ parseClassContent [] = none
      ∧ parseIndexContent goodIndex = some (some (entryOf 12 5 3 (keyOf 0x50) 1 2 240 false false))
      ∧ mgmtHead (withMgmt (.tableWrite 3 2047 [9]) (withStaged 63 base)) = some (7, .tableWrite 3 2047 [9])
      ∧ mgmtHead (withMgmt (.tableWrite 3 2047 [9]) (withStaged 64 base)) = some (7, .tableWrite 3 2047 [9])
      ∧ (withStaged 63 base).mu.staging.length < 64 ∧ 64 ≤ (withStaged 64 base).mu.staging.length := by decide +kernel

theorem witness_TableFencePublishes :
    mgmtHead fenced = some (7, .tableFence) ∧ IndexRising fenced ∧ 15 < fenced.mu.classes.length
      ∧ 7 < fenced.mu.tones.length ∧ 255 < (fenced.mu.tones.getD 7 []).length :=
  ⟨by decide +kernel, witness_StepKeepsTables.2.1, by decide +kernel, by decide +kernel, by decide +kernel⟩

theorem witness_TableReadReturnsActive :
    mgmtHead (withMgmt (.tableRead 0 0) base) = some (7, .tableRead 0 0)
      ∧ mgmtHead (withMgmt (.tableRead 1 4095) base) = some (7, .tableRead 1 4095)
      ∧ mgmtHead (withMgmt (.tableRead 2 16) base) = some (7, .tableRead 2 16)
      ∧ mgmtHead (withMgmt (.tableRead 2 15) base) = some (7, .tableRead 2 15)
      ∧ mgmtHead (withMgmt (.tableRead 3 2047) base) = some (7, .tableRead 3 2047)
      ∧ (keyOf 0x50).number.length = 16 ∧ (keyOf 0x50).revision = none := by decide +kernel

theorem witness_TableDescribeSummarises :
    (mgmtHead (withMgmt (.tableDescribe 0) table113) = some (7, .tableDescribe 0)
      ∧ mgmtHead (withMgmt (.tableDescribe 1) table113) = some (7, .tableDescribe 1)
      ∧ mgmtHead (withMgmt (.tableDescribe 2) table113) = some (7, .tableDescribe 2)) ∧ IndexRising table113 :=
  ⟨by decide +kernel, by decide, by decide, nofun⟩

/-- The first and the last entry that the bounds admit, and a class at its bounds. -/
theorem witness_LayoutsReadBack :
    numberOk (keyOf 0x5A).number = true ∧ (keyOf 0x5A).number.length = 16
      ∧ isCharacter 0x5A = true ∧ (0x5A : Byte) ≠ 0x20 ∧ 1 + 64 ≤ 65 ∧ targetKind? 3 = some .batchEnd
      ∧ (80 ≤ ClassEntry.powerOn.rc ∧ ClassEntry.powerOn.rc ≤ 500) ∧ ClassEntry.powerOn.tone ≤ 7
      ∧ ClassEntry.powerOn.level ≤ 3 ∧ (1 ≤ ClassEntry.powerOn.copies ∧ ClassEntry.powerOn.copies ≤ 3) := by decide

/-! ### Witnesses: film records -/

/-- Frames matched by the first and by a superseded entry, a leader, and one that no entry covers. -/
theorem witness_ClassificationByFirstMatch :
    IndexRising table113 ∧ (classify table113.mu { header with roll := 12, ordinal := 8 }
        = .superseded 1 ((entryOf 12 8 1 (keyOf 0x51) 2 2 240 false true).matched 8))
      ∧ classify table113.mu { header with roll := 12, ordinal := 10 } = .unindexed 240
      ∧ classify table113.mu { header with roll := 12, ordinal := 4 } = .leader :=
  ⟨⟨by decide, by decide, nofun⟩, by decide, by decide, by decide⟩

theorem witness_WakeHoldsHeader :
    headHeader (withFilm (.header header) (withMode .retaining base)) = some header
      ∧ (withFilm (.header header) (withMode .retaining base)).sc.mode ≠ .active
      ∧ (withMode .waking base).sc.mode = .waking ∧ headHeader (withMode .waking base) = none
      ∧ headHeader (withFilm (.header { header with ordinal := 4 }) (withMode .waking base))
          = some { header with ordinal := 4 }
      ∧ (1 ≤ ({ header with ordinal := 4 } : Header).ordinal ∧ ({ header with ordinal := 4 } : Header).ordinal ≤ 4)
      ∧ header.wf ≠ 0 ∧ header.hf ≠ 0
      ∧ headHeader (withFilm (.header { header with roll := 12, ordinal := 5 }) (withMode .waking table113))
          = some { header with roll := 12, ordinal := 5 }
      ∧ headHeader (withFilm (.header header) base) = some header ∧ base.sc.mode = .active := by decide +kernel

/-- A header at the head of a part whose intake is IDLE. -/
theorem witness_idle_header (h : Header) (f : FrameCtx) : (withFilm (.header h) table113).rs.intake ≠ .receiving f := nofun

theorem witness_HeaderToDiscarding :
    headHeader (withFilm (.header { header with hf := 0 }) table113) = some { header with hf := 0 }
      ∧ table113.sc.mode = .active
      ∧ headHeader (withFilm (.header { header with ordinal := 1 }) table113) = some { header with ordinal := 1 }
      ∧ headHeader (withFilm (.header { header with roll := 12, ordinal := 8 }) table113)
          = some { header with roll := 12, ordinal := 8 }
      ∧ classify table113.mu { header with roll := 12, ordinal := 8 }
          = .superseded 1 ((entryOf 12 8 1 (keyOf 0x51) 2 2 240 false true).matched 8)
      ∧ headHeader (withFilm (.header { header with roll := 12, ordinal := 5, db := 15 }) table113)
          = some { header with roll := 12, ordinal := 5, db := 15 }
      ∧ classify table113.mu { header with roll := 12, ordinal := 5, db := 15 }
          = .indexed 0 ((entryOf 12 5 3 (keyOf 0x50) 1 2 240 false false).matched 5)
      ∧ 15 < table113.dm.floor ∧ classify table113.mu { header with db := 15 } = .unindexed 240 := by decide +kernel

theorem witness_HeaderEvaluatesDensity :
    headHeader (withFilm (.header header) table113) = some header ∧ table113.sc.mode = .active
      ∧ table113.dm.state = .normal ∧ header.db < table113.dm.enter ∧ ¬ (1 ≤ header.ordinal ∧ header.ordinal ≤ 4)
      ∧ ¬ (1 ≤ ({ header with ordinal := 5 } : Header).ordinal ∧ ({ header with ordinal := 5 } : Header).ordinal ≤ 4) := by
  decide +kernel

def purgePending (s : State) : State := { s with mu := { s.mu with purgeTag := some 12 } }
def noSlot (st : ChipState) : State :=
  { table113 with sc := { table113.sc with slots := List.replicate 512 (.held st chip0) } }
/-- Every entry of the queue a job. -/
def fullOfJobs (s : State) : State := withQueue (List.replicate 32 (.job job0)) s

/-- An unindexed frame with a slot to grant, once while a STORE PURGE waits; with none while the card path holds one, and
with none and an empty card path; an indexed frame for pass-through with an entry free and with none; a backlog that can
be placed; the density and speed at their limits. -/
theorem witness_HeaderSetUp :
    (headHeader (withFilm (.header header) table113) = some header
      ∧ classify table113.mu header = .unindexed 240 ∧ table113.dm.floor ≤ header.db ∧ table113.sau.backlog = []
      ∧ destinationOf none table113.sau ≠ .passThrough ∧ table113.mu.purgeTag = none ∧ table113.sc.mode = .active
      ∧ chooseSlot table113.sc (cardSlot table113) = some 0 ∧ (withNotices 30 table113).fli.notices.length < 31)
    ∧ (headHeader (withFilm (.header header) (purgePending table113)) = some header
      ∧ (purgePending table113).mu.purgeTag ≠ none)
    ∧ (headHeader (withFilm (.header header) (noSlot .queued)) = some header
      ∧ chooseSlot (noSlot .queued).sc (cardSlot (noSlot .queued)) = none ∧ cardPathHolds (noSlot .queued).sc = true)
    ∧ (headHeader (withFilm (.header header) (noSlot .filed)) = some header
      ∧ chooseSlot (noSlot .filed).sc (cardSlot (noSlot .filed)) = none ∧ cardPathHolds (noSlot .filed).sc = false
      ∧ markerReady (noSlot .filed) = false)
    ∧ (let h := { header with roll := 12, ordinal := 5, db := 16, ps := 201 }
       let m := (entryOf 12 5 3 (keyOf 0x50) 1 2 240 false false).matched 5
       headHeader (withFilm (.header h) table113) = some h ∧ classify table113.mu h = .indexed 0 m ∧ table113.dm.floor = 16
         ∧ destinationOf (some m) table113.sau = .passThrough ∧ entryFree table113 = true
         ∧ headHeader (withFilm (.header h) (fullOfJobs table113)) = some h ∧ entryFree (fullOfJobs table113) = false
         ∧ markerReady (fullOfJobs table113) = false)
    ∧ (let s := { table113 with sau := { table113.sau with backlog := [.marker] } }
       headHeader (withFilm (.header header) s) = some header ∧ s.sau.backlog ≠ [] ∧ entryFree s = true) := by
  decide +kernel

theorem witness_LineDiscardedOutsideFrame :
    headLine (withFilm (.line 0 [1]) base) = some (0, [1])
      ∧ (∀ f, (withFilm (.line 0 [1]) base).rs.intake ≠ .receiving f)
      ∧ (withIntake (.waitSlot frame) base).rs.intake.waiting = true := ⟨by decide +kernel, film_not_receiving _, rfl⟩

/-- A frame of 4 lines whose first two bands lie above the raster. -/
def frame4 : FrameCtx := { frame with hf := 4 }
def above : Geometry := { small with yoff := -1 }

/-- Below the expected number, at Hf, the expected line short and whole, a line whose band is empty, and a gap. -/
theorem witness_LineByNumber :
    headLine (withFilm (.line 0 [1]) (receiving { frame with expected := 1 } base)) = some (0, [1])
      ∧ headLine (withFilm (.line 2 [1]) (receiving frame base)) = some (2, [1])
      ∧ (receiving frame base).rs.intake = .receiving frame ∧ frame.slot = some 3
      ∧ (receiving frame base).rs.geometry = some small
      ∧ (mapLine small 3 8 0 none 0 (lineInks identityTone 4 [1])).isSome = true
      ∧ (mapLine { small with yoff := 4000 } 3 8 0 none 0 (lineInks identityTone 4 [1])).isSome = false
      ∧ headLine (withFilm (.line 1 [1]) (receiving frame base)) = some (1, [1])
      ∧ (mapLine small 3 8 0 none 0 (List.replicate 4 0)).isSome = true := by decide +kernel

/-- Two lines with no band, then one with a band, as a gap before LINE 3 and as a trailing fill; no band at all before LINE 2. -/
theorem witness_LineHandled :
    (∃ b c, NextFill frame4 above 3 3 2 b c) ∧ (∃ b c, NextFill frame4 above 3 frame4.hf 2 b c) ∧ NoFill frame4 above 3 2
      ∧ headLine (withFilm (.line 3 [1]) (receiving frame4 base)) = some (3, [1]) ∧ frame4.expected ≤ 3 ∧ 3 < frame4.hf
      ∧ frame4.hf ≤ 16383 ∧ (mapLine above 3 8 0 none 2 (lineInks identityTone 4 [1])).isSome = true
      ∧ (mapLine above 3 8 0 none 1 (lineInks identityTone 4 [1])).isSome = false := by
  have none2 : ∀ j, j < 2 → mapLine above 3 8 0 none j (List.replicate 4 0) = none := by
    intro j h
    have : (mapLine above 3 8 0 none j (List.replicate 4 0)).isNone = true := by
      match j, h with
      | 0, _ => decide +kernel
      | 1, _ => decide +kernel
    simpa using this
  have some2 : (mapLine above 3 8 0 none 2 (List.replicate 4 0)).isSome = true := by decide +kernel
  obtain ⟨⟨b, c⟩, h⟩ := Option.isSome_iff_exists.mp some2
  exact ⟨⟨b, c, by decide, by decide, fun j _ => none2 j, h⟩, ⟨b, c, by decide, by decide, fun j _ => none2 j, h⟩,
    fun j _ => none2 j, by decide +kernel⟩

/-- In IDLE, in DISCARDING, with every line placed and with lines outstanding; a geometry that leaves closing bursts, and one
that leaves none. -/
theorem witness_FrameEndCloses :
    headFrameEnd (withFilm (.frameEnd 2) base) = some 2 ∧ (withFilm (.frameEnd 2) base).rs.intake = .idle
      ∧ headFrameEnd (withFilm (.frameEnd 2) (withIntake (.discarding .leader 1 2) base)) = some 2
      ∧ headFrameEnd (withFilm (.frameEnd 65535) (receiving { frame with expected := 2 } base)) = some 65535
      ∧ (closingBursts small).length ≠ 0 ∧ headFrameEnd (withFilm (.frameEnd 4) (receiving frame4 base)) = some 4
      ∧ (receiving frame4 base).rs.intake = .receiving frame4 ∧ (receiving frame4 base).rs.geometry = some small
      ∧ (some 65535).any (fun n => decide (frame.records < n)) = true
      ∧ closingBursts (makeGeometry 70 5000 3600 300 240 100 .shrink .r0 .r90) = [] := by decide +kernel

/-- Each record that can cause the end, with lines outstanding and with every line placed. -/
theorem witness_ImplicitEndBegins :
    (receiving frame base).rs.intake = .receiving frame ∧ (receiving frame base).rs.geometry = some small
      ∧ frame.slot = some 3 ∧ frame.expected < frame.hf ∧ frame.hf ≤ 16383
      ∧ (mapLine small 3 frame.depth frame.margin frame.carry 0 (List.replicate 4 0)).isSome = true
      ∧ (receiving frame base).sc.mode = .active
      ∧ (headHeader (withFilm (.header header) (receiving frame base))).isSome = true
      ∧ (∀ k, k ∈ [TargetKind.start, .endSet, .batchEnd] →
          (headTarget k (withFilm (.target { kind := k, roll := 1, ordinal := 1 }) (receiving frame base))).isSome = true)
      ∧ headLoss (withHead (.loss .frameHeader) (receiving frame base)) = some .frameHeader
      ∧ headLoss (withHead (.loss .frameHeader) (receiving { frame with expected := 2 } base)) = some .frameHeader := by
  decide +kernel

def tStart : Target := { kind := .start, roll := 1, ordinal := 9 }
def tEnd : Target := { kind := .endSet, roll := 1, ordinal := 9 }
def tBatch : Target := { kind := .batchEnd, roll := 1, ordinal := 9 }
def allClosed (s : State) : State :=
  { s with sau := { s.sau with sets := List.replicate 8 (shortRecord .closed 2) } }

theorem closed_not_receiving (r : FilmRecord) (f : FrameCtx) :
    (withFilm r (allClosed base)).rs.intake ≠ .receiving f := nofun

theorem witness_StartOpensRecord :
    (headTarget .start (withFilm (.target tStart) base) = some tStart ∧ currentSet base.sau = none
      ∧ emptyRecord base.sau = some 0 ∧ headTarget .start (withFilm (.target tStart) (allClosed base)) = some tStart
      ∧ emptyRecord (allClosed base).sau = none ∧ currentSet (allClosed base).sau = none)
    ∧ (∀ r, r ∈ (allClosed base).sau.sets → r.state ≠ .held)
    ∧ (∀ f, (withFilm (.target tStart) base).rs.intake ≠ .receiving f)
    ∧ ∀ f, (withFilm (.target tStart) (allClosed base)).rs.intake ≠ .receiving f :=
  ⟨by decide +kernel, fun r h => by
    rw [List.eq_of_mem_replicate (show r ∈ List.replicate 8 (shortRecord .closed 2) from h)]; decide,
    film_not_receiving _, closed_not_receiving _⟩

def ending (r : SetRecord) : State := withFilm (.target tEnd) (fullQueue (withSet 7 r base))
def sendClass (s : State) : State :=
  { s with mu := { s.mu with classes := s.mu.classes.set 3 { ClassEntry.powerOn with short := .send } } }

def spilledRecord : SetRecord := { completeRecord with sheets := .spilled :: List.replicate 63 .empty }
def endingFree (r : SetRecord) : State := withFilm (.target tEnd) (sendClass (withSet 7 r base))

theorem ending_not_receiving (f : FrameCtx) (r : SetRecord) : (ending r).rs.intake ≠ .receiving f := nofun
theorem endingFree_not_receiving (f : FrameCtx) (r : SetRecord) : (endingFree r).rs.intake ≠ .receiving f := nofun

/-- An OPEN record of class 3, SEND, with no sheet at all. -/
def sheetless : SetRecord := { shortRecord .opened 3 with sheets := List.replicate 64 .empty }

/-- With entries free: record 7 with no key, with every take spilled, short under HOLD, and short under SEND with no sheet. -/
theorem witness_EndEndsCurrentSet_free :
    (∀ r, r ∈ [openSetRecord, spilledRecord, shortRecord .opened 2, sheetless] →
      headTarget .endSet (endingFree r) = some tEnd ∧ currentSet (endingFree r).sau = some 7
        ∧ setAt (endingFree r).sau 7 = r ∧ (endingFree r).sau.backlog = [] ∧ entryFree (endingFree r) = true)
    ∧ (spilledRecord.title.isSome = true ∧ setComplete spilledRecord = true ∧ setCards spilledRecord = []
      ∧ (shortRecord .opened 2).title.isSome = true ∧ setComplete (shortRecord .opened 2) = false
      ∧ (classAt (endingFree openSetRecord).mu 2).short = .hold ∧ sheetless.title.isSome = true
      ∧ setComplete sheetless = false ∧ setCards sheetless = [] ∧ (classAt (endingFree openSetRecord).mu 3).short = .send)
    ∧ ∀ f r, (endingFree r).rs.intake ≠ .receiving f := ⟨by decide +kernel, by decide +kernel, endingFree_not_receiving⟩

/-- R125: END, with entries free: the sheetless set is EMPTY after SET_SHORT of its sheet 1, three missing. -/
theorem test_end_of_sheetless_set :
    (let t := after .endTarget (endingFree sheetless)
     (setAt t.sau 7).state = .empty ∧ t.sau.passMode = false ∧ t.cs.queue.length = 0
       ∧ t.fli.notices.map Notice.kind = [.setShort] ∧ t.fli.notices.map Notice.sheet = [some 1]
       ∧ t.fli.notices.map Notice.detail = [3]) := by decide +kernel

/-- No OPEN record; record 7 with no key, complete, short under HOLD, short under SEND. -/
theorem witness_EndEndsCurrentSet :
    (headTarget .endSet (withFilm (.target tEnd) base) = some tEnd ∧ currentSet base.sau = none
      ∧ headTarget .endSet (ending openSetRecord) = some tEnd
      ∧ currentSet (ending openSetRecord).sau = some 7 ∧ entryFree (ending openSetRecord) = false
      ∧ (setAt (ending openSetRecord).sau 7).title = none
      ∧ currentSet (ending completeRecord).sau = some 7 ∧ setCards (setAt (ending completeRecord).sau 7) ≠ []
      ∧ setComplete (setAt (ending completeRecord).sau 7) = true
      ∧ currentSet (ending (shortRecord .opened 2)).sau = some 7
      ∧ setComplete (setAt (ending (shortRecord .opened 2)).sau 7) = false
      ∧ (classAt (ending (shortRecord .opened 2)).mu 2).short = .hold
      ∧ setCards (setAt (ending (shortRecord .opened 3)).sau 7) ≠ []
      ∧ (classAt (sendClass (ending (shortRecord .opened 3))).mu 3).short = .send)
    ∧ ∀ f r, (ending r).rs.intake ≠ .receiving f := ⟨by decide +kernel, ending_not_receiving⟩

theorem witness_BatchEndPlacesMarker :
    (headTarget .batchEnd (withFilm (.target tBatch) base) = some tBatch ∧ currentSet base.sau = none
      ∧ groupState base.sau ≠ .collecting ∧ base.sau.backlog = [] ∧ entryFree base = true
      ∧ headTarget .batchEnd (withFilm (.target tBatch) (fullQueue base)) = some tBatch
      ∧ entryFree (fullQueue base) = false
      ∧ entryFree { base with sau := { base.sau with backlog := [.marker] } } = true)
    ∧ ∀ f, (withFilm (.target tBatch) base).rs.intake ≠ .receiving f := ⟨by decide +kernel, film_not_receiving _⟩

/-- A queue of so many jobs, record 7 OPEN and a COLLECTING group. -/
def batchEnding (jobs : Nat) (r : SetRecord) : State :=
  let s := withSet 7 r (withQueue (List.replicate jobs (.job job0)) base)
  withFilm (.target tBatch) (sendClass { s with sau := { s.sau with
    group := [{ slot := 9, roll := 1, ordinal := 5, flags := {} }] } })

/-- The OPEN record with no key, complete, short under SEND, with every take spilled, short under HOLD; 29 and 32 entries. -/
theorem witness_batch_end_open_set :
    (∀ n, n ∈ [29, 32] → ∀ r, r ∈ [openSetRecord, completeRecord, shortRecord .opened 3] →
      headTarget .batchEnd (batchEnding n r) = some tBatch ∧ currentSet (batchEnding n r).sau = some 7
        ∧ setAt (batchEnding n r).sau 7 = r ∧ groupState (batchEnding n r).sau = .collecting
        ∧ (batchEnding n r).sau.backlog = [] ∧ (batchEnding n r).cs.queue.length = n)
    ∧ (∃ r, EndedAs base.mu 7 openSetRecord r []) ∧ (∃ r, EndedAs base.mu 7 completeRecord r [.set 7])
    ∧ (∃ r, EndedAs (sendClass base).mu 7 (shortRecord .opened 3) r [.set 7])
    ∧ (∃ r, EndedAs base.mu 7 spilledRecord r []) ∧ ∃ r, EndedAs base.mu 7 (shortRecord .opened 2) r [] :=
  ⟨by decide +kernel, ⟨_, .noKey rfl⟩, ⟨_, .complete _ rfl (by decide) (by decide)⟩,
    ⟨_, .sent _ rfl (by decide) (by decide) (by decide)⟩, ⟨_, .allSpilled _ rfl (.inl (by decide)) (by decide)⟩,
    ⟨_, .held _ rfl (by decide) (by decide)⟩⟩
/-- R127, R118: with 29 entries the set's job, the group's job and the marker are placed in order, and the intake is IDLE. -/
theorem test_batch_end_places_all :
    (let t := after .batchEnd (batchEnding 29 completeRecord)
     (t.cs.queue.length, (t.cs.queue.drop 29).map Entry.isAnyJob, t.rs.intake, (setAt t.sau 7).state, t.sau.group))
      = (32, [true, true, false], .idle, .empty, []) := by decide +kernel

theorem witness_LossIndicationByKind :
    (headLoss (withHead (.loss .target) base) = some .target
      ∧ headLoss (withHead (.loss .frameHeader) base) = some .frameHeader)
    ∧ ∀ f, (withHead (.loss .frameHeader) base).rs.intake ≠ .receiving f := ⟨by decide +kernel, loss_not_receiving _⟩

/-! ### Witnesses: the chip -/

/-- Each bound of the captured inputs, once with REDUCED, once limited. -/
theorem witness_GeometryOfFrame :
    (makeGeometry 255 16383 16383 500 80 50 .shrink .r0 .r90).outcome = .reduced
      ∧ (makeGeometry 0 1 1 80 500 200 .crop .r0 .r90).limited = true
      ∧ case1.limited = false ∧ case1.outcome ≠ .reduced := by decide

/-- A burst active during a close, with this work left. -/
def workLeft (w : Work) (f : FrameCtx) (s : State) : State := withWrite burst0 (setWork w (receiving f s))

/-- The burst of a line, of a gap, of each part of a close, of an aborted frame; the last of an implicit end with each record
that can have caused it at the head; and targets with no frame open. -/
theorem witness_WriteBurstServed :
    activeWrite (withWrite burst0 base) = some burst0 ∧ writeFits burst0 = true
      ∧ MemoryCanonical (withWrite burst0 base) ∧ burst0.aborted = false ∧ (withWrite burst0 base).rs.work = .none
      ∧ writeFits { burst0 with slot := 512 } = false ∧ writeFits { burst0 with first := 4095 } = true
      ∧ writeFits { burst0 with first := 4096 } = false
      ∧ activeWrite (workLeft (.margins false [(0, 16)]) frame base) = some burst0
      ∧ (workLeft (.line 3 [1]) frame4 base).rs.work = .line 3 [1] ∧ frame4.expected ≤ 3 ∧ 3 < frame4.hf
      ∧ (workLeft (.line 3 [1]) frame4 base).rs.intake = .receiving frame4
      ∧ (workLeft (.line 3 [1]) frame4 base).rs.geometry = some small ∧ frame4.slot = some 3
      ∧ (workLeft (.fill none) frame4 base).rs.work = .fill none
      ∧ (workLeft (.fill (some 4)) frame4 base).rs.work = .fill (some 4)
      ∧ (workLeft (.margins true []) frame base).rs.work = .margins true []
      ∧ headItem (withFilm (.header header) (workLeft (.margins true []) frame base)).fli = some (.film (.header header))
      ∧ headItem (withFilm (.target tBatch) (workLeft (.margins true []) frame base)).fli = some (.film (.target tBatch))
      ∧ headItem (withHead (.loss .frameHeader) (workLeft (.margins true []) frame base)).fli = some (.loss .frameHeader)
      ∧ activeWrite (withWrite { burst0 with aborted := true } base) = some { burst0 with aborted := true }
      ∧ headTarget .start (withFilm (.target tStart) base) = some tStart
      ∧ headTarget .endSet (withFilm (.target tEnd) base) = some tEnd
      ∧ headTarget .batchEnd (withFilm (.target tBatch) base) = some tBatch := by
  unfold MemoryCanonical
  decide +kernel

/-- R76, R60: after the last burst of an implicit end the frame is filed and the header that caused it is set up, its
slot the first of the lowest bank with most FREE slots (R94). -/
theorem test_implicit_end_takes_header :
    (let t := after .writeBurstServed (withFilm (.header header) (workLeft (.margins true []) frame base))
     (t.sau.group.length, t.fli.fifo, (slotAt t.sc 3).inState .filed, (slotAt t.sc 128).inState .filling)) = (1, [], true, true) := by
  decide +kernel

def matchedSheet (n : Nat) : Matched := { key := keyOf 0x41, sheet := n, sheetCount := 3, cls := 2, rf := 240 }
def closing (f : FrameCtx) (s : State) : State := workLeft (.margins false []) f s

/-- Sheets 1 and 64 of an OPEN record; sheet 1 is there already, in slot 4. -/
def retakeRecord : SetRecord := { shortRecord .opened 2 with sheets := .filed 4 40 7 {} :: List.replicate 63 .empty }

theorem witness_FilingIntoOpenSet :
    (let f := { frame with dest := .set 7, entry := some (matchedSheet 1) }
     let s := closing f (withSet 7 retakeRecord base)
     activeWrite s = some burst0 ∧ writeFits burst0 = true ∧ burst0.aborted = false ∧ s.rs.intake = .receiving f
       ∧ s.rs.geometry.isSome = true ∧ s.rs.work = .margins false [] ∧ f.dest = .set 7 ∧ f.entry = some (matchedSheet 1)
       ∧ f.slot = some 3 ∧ (setAt s.sau 7).state = .opened ∧ (setAt s.sau 7).sheets.length = 64
       ∧ (1 ≤ (matchedSheet 1).sheet ∧ (matchedSheet 64).sheet ≤ 64) ∧ 3 < s.sc.slots.length
       ∧ slotAt s.sc 3 = .held .filling chip0
       ∧ (setAt s.sau 7).sheets.getD ((matchedSheet 1).sheet - 1) .empty = .filed 4 40 7 {}
       ∧ 4 < s.sc.slots.length ∧ bankOf 4 < s.sc.banks) := by decide +kernel

theorem witness_FilingIntoGroupOrJob :
    (let s := closing frame base
     activeWrite s = some burst0 ∧ s.rs.intake = .receiving frame ∧ s.rs.geometry.isSome = true
       ∧ s.rs.work = .margins false [] ∧ slotAt s.sc 3 = .held .filling chip0 ∧ frame.dest = .group
       ∧ s.sau.group.length < 63)
    ∧ (let f := { frame with dest := .passThrough, entry := some (matchedSheet 1) }
       let s := closing f (withQueue [.marker, .reservation, .marker] base)
       activeWrite s = some burst0 ∧ s.rs.intake = .receiving f ∧ f.dest = .passThrough
         ∧ s.cs.queue = [.marker] ++ .reservation :: [.marker] ∧ [Entry.marker].any Entry.isReservation = false) := by
  decide +kernel

/-! ### Witnesses: the Frame Store -/

theorem witness_StoreGrants :
    chooseSlot table68 (some 130) = some 0 ∧ chooseSlot { table68 with slots := [] } none = none
      ∧ ({ burst0 with active := false } : WriteBurst).active = false ∧ bankOf burst0.slot < table68.turns.length
      ∧ bankOf burst0.slot = bankOf 127 ∧ bankOf burst0.slot ≠ bankOf 128
      ∧ table68.turns.getD (bankOf burst0.slot) .read = .read
      ∧ 0 < freeInBank table68 3 ∧ (some 130).map bankOf ≠ some 3 := by decide +kernel

/-- Each row of R103 and R104; a due moment of a RETAINING store that finds a refresh running, and the owed ones run. -/
theorem witness_RefreshRules :
    base.sc.timer = some 8 ∧ (withMode .retaining base).sc.mode = .retaining ∧ base.sc.mode ≠ .retaining
      ∧ base.sc.forced = none ∧ base.sc.refresh = none ∧ burstPresent base.sc = false
      ∧ burstPresent (withWrite burst0 base).sc = true ∧ (withWrite burst0 base).sc.deferral < 8
      ∧ ({ base.sc with refresh := some .owed, forced := some 1, deferral := 0 } : Sc).refresh = some .owed
      ∧ burstActive { base.sc with refresh := some .owed, forced := some 1 } = false
      ∧ burstActive (withWrite { burst0 with active := false } base).sc = false
      ∧ (let s := withMode .retaining { base with sc := { base.sc with refresh := some .due, dues := 1 } }
         s.sc.timer = some 8 ∧ s.sc.refresh ≠ none ∧ s.sc.refresh = some .due ∧ burstActive s.sc = false
           ∧ burstPresent s.sc = false ∧ s.sc.forced = none ∧ s.sc.mode = .retaining ∧ 0 < s.sc.dues) := by decide +kernel

theorem witness_StoreSetupStores :
    mgmtHead (withMgmt (.storeSetup 1 4) base) = some (7, .storeSetup 1 4)
      ∧ mgmtHead (withMgmt (.storeSetup 2 1) base) = some (7, .storeSetup 2 1)
      ∧ mgmtHead (withMgmt (.storeSetup 64 4) (receiving frame base)) = some (7, .storeSetup 64 4)
      ∧ receivingNow (receiving frame base) = true ∧ receivingNow base = false ∧ base.cli.card = none
      ∧ droppedFree 1 base.sc = true ∧ droppedFree 1 (withSlot 511 (.held .filed chip0) base).sc = false := by decide +kernel

theorem witness_StoreRetainTable :
    mgmtHead (withMgmt .storeRetain base) = some (7, .storeRetain) ∧ base.sc.mode = .active ∧ base.rs.intake = .idle
      ∧ base.cli.card = none ∧ base.sc.refresh = none ∧ base.sc.forced = none ∧ base.sc.deferral = 0
      ∧ base.sc.write = none ∧ base.sc.read = none
      ∧ mgmtHead (withMgmt .storeRetain (inFlight job0 card0 base)) = some (7, .storeRetain)
      ∧ mgmtHead (withMgmt .storeRetain (withMode .retaining base)) = some (7, .storeRetain)
      ∧ mgmtHead (withMgmt .storeRetain (withMode .waking base)) = some (7, .storeRetain)
      ∧ headerWaits (withMode .retaining base) = false
      ∧ mgmtHead (withMgmt .storeRetain (withFilm (.header header) base)) = some (7, .storeRetain)
      ∧ headerWaits (answeredBy 7 0x48 (.ok .none) (withMgmt .storeRetain (withFilm (.header header) (withMode .retaining base))))
          = true := by decide +kernel

theorem witness_StoreWakeTable :
    mgmtHead (withMgmt .storeWake base) = some (7, .storeWake) ∧ base.sc.mode = .active
      ∧ mgmtHead (withMgmt .storeWake (withMode .retaining base)) = some (7, .storeWake)
      ∧ mgmtHead (withMgmt .storeWake (withMode .waking base)) = some (7, .storeWake) := by decide +kernel

def purging (s : State) : State := withMgmt .storePurge s
def abortedBurst : WriteBurst := { burst0 with aborted := true }

def leftRead : ReadBurst := { slot := 4, row := 2911, active := true, discard := true, release := false }
def withRead (r : ReadBurst) (s : State) : State := { s with sc := { s.sc with read := some r } }

/-- Refused with a card in flight; taken with nothing to wait for, with a frame or a BATCH END waiting, with the burst of an
ended frame, and with the read burst left of an ended card on a QUEUED slot, which is freed as that burst ends; the last
steps put off and carried out. -/
theorem witness_StorePurgeClears :
    (mgmtHead (purging (inFlight job0 card0 base)) = some (7, .storePurge) ∧ (inFlight job0 card0 base).cli.card ≠ none
      ∧ mgmtHead (purging base) = some (7, .storePurge) ∧ receivingNow (purging base) = false
      ∧ (purging base).cli.card = none ∧ purgeWaits (purging base).sc = false
      ∧ mgmtHead (purging (withIntake (.waitSlot waitingFrame) base)) = some (7, .storePurge)
      ∧ (withIntake (.waitSlot waitingFrame) base).rs.intake = .waitSlot waitingFrame
      ∧ (withIntake (.waitTarget tBatch) base).rs.intake = .waitTarget tBatch ∧ tBatch.kind = .batchEnd
      ∧ purgeWaits (withWrite abortedBurst base).sc = true
      ∧ (slotAt (withSlot 4 (.held .queued chip0) base).sc 4).inState .filling = false
      ∧ (slotAt (withSlot 4 (.held .queued chip0) base).sc 4).inState .recording = false
      ∧ readLeftOn base.sc 4 = false)
    ∧ (let s := withRead leftRead (withSlot 4 (.held .queued chip0) base)
       purgeWaits s.sc = true ∧ s.sc.read = some leftRead ∧ leftRead.slot = 4 ∧ leftRead.discard = true
         ∧ (slotAt s.sc 4).purgeable = true ∧ 4 < s.sc.slots.length)
    ∧ (let s := withRead { leftRead with release := true } (withSlot 4 (.held .queued chip0) base)
       activeRead s = some { leftRead with release := true } ∧ readFits 4 2911 = true ∧ s.cli.card = none)
    ∧ (purgePending base).mu.purgeTag = some 12 ∧ purgeWaits (purgePending base).sc = false
    ∧ purgeWaits (withWrite abortedBurst (purgePending base)).sc = true := by decide +kernel

theorem witness_purge_no_target (x : Target) :
    (purging base).rs.intake ≠ .waitTarget x ∧ (purging base).rs.intake.slotOk
      ∧ (withIntake (.waitSlot waitingFrame) base).rs.intake.slotOk := ⟨nofun, trivial, rfl⟩

/-! ### Witnesses: set records and cards -/

/-- The current set with no key; a HELD set of the key with none current; the group COLLECTING and CLOSED. -/
theorem witness_DestinationOfFrame :
    currentSet (withSet 7 openSetRecord base).sau = some 7 ∧ (setAt (withSet 7 openSetRecord base).sau 7).title = none
      ∧ currentSet (withSet 0 (shortRecord .held 2) base).sau = none
      ∧ (setAt (withSet 0 (shortRecord .held 2) base).sau 0).state = .held
      ∧ (setAt (withSet 0 (shortRecord .held 2) base).sau 0).title.map Title.key = some (matchedSheet 1).key
      ∧ destinationOf (some (matchedSheet 1)) (withSet 0 (shortRecord .held 2) base).sau = .set 0
      ∧ destinationOf (some { matchedSheet 1 with key := keyOf 0x42 }) (withSet 0 (shortRecord .held 2) base).sau
          = .passThrough
      ∧ groupState base.sau ≠ .closed
      ∧ groupState { base.sau with group := [{ slot := 3, roll := 1, ordinal := 5, flags := {} }], groupClosed := true }
          = .closed := by decide +kernel

def releasing (n : Nat) (s : State) : State := withMgmt (.setRelease n) s
def discarding (n : Nat) (s : State) : State := withMgmt (.setDiscard n) s
def heldSet (s : State) : State := withSet 7 (shortRecord .held 2) s

theorem witness_SetReleaseByState :
    mgmtHead (releasing 8 base) = some (7, .setRelease 8) ∧ mgmtHead (releasing 7 (heldSet base)) = some (7, .setRelease 7)
      ∧ openDestination (heldSet base) ≠ some (.set 7) ∧ (setAt (heldSet base).sau 7).state = .held
      ∧ setCards (setAt (heldSet base).sau 7) ≠ [] ∧ entryFree (heldSet base) = true ∧ (heldSet base).sau.backlog = []
      ∧ entryFree (fullQueue (heldSet base)) = false
      ∧ (setAt (withSet 7 openSetRecord base).sau 7).state = .opened ∧ (setAt base.sau 7).state = .empty
      ∧ setCards { SetRecord.blank with state := .held } = []
      ∧ openDestination (receiving { frame with dest := .set 7 } base) = some (.set 7) := by decide +kernel

theorem witness_SetDiscardFrees :
    mgmtHead (discarding 8 base) = some (7, .setDiscard 8) ∧ mgmtHead (discarding 7 (heldSet base)) = some (7, .setDiscard 7)
      ∧ openDestination (heldSet base) ≠ some (.set 7) ∧ (setAt (heldSet base).sau 7).state = .held
      ∧ (setAt base.sau 7).state = .empty ∧ (setAt (withSet 7 openSetRecord base).sau 7).state = .opened
      ∧ (setCards (setAt (heldSet base).sau 7)).map CardPos.slot = [3] ∧ 3 < (heldSet base).sc.slots.length
      ∧ bankOf 3 < (heldSet base).sc.banks
      ∧ (slotAt (withSlot 3 (.held .filed chip0) (heldSet base)).sc 3).inState .filed = true := by decide +kernel

/-- A yielding job of class 2 whose card ended last and a job of class 3, level 3 and break-in yes. -/
def urgentJob : Job := { job0 with id := 6, cls := 3 }
def breaking : State :=
  let t := withQueue [.job job0, .job urgentJob] base
  { t with
    cs := { t.cs with current := some 5, last := .job 5 }
    mu := { t.mu with classes := t.mu.classes.set 3 { ClassEntry.powerOn with level := 3, breakIn := true } } }

/-- An intake that is IDLE and an empty backlog leave nothing to place or grant and ask for no release. -/
theorem cards_next (s : State) (hb : s.sau.backlog = []) (hi : s.rs.intake = .idle) : CardsNext s ∧ NoRelease s :=
  ⟨⟨.inl hb, fun _ h => (nomatch hi.symm.trans h), fun _ h => (nomatch hi.symm.trans h)⟩,
    fun _ h => (nomatch hi.symm.trans h)⟩

/-- A frame that waits for a slot and finds none, with an empty backlog, leaves nothing to place or grant. -/
theorem cards_next_waiting (s : State) (f : FrameCtx) (hb : s.sau.backlog = []) (hi : s.rs.intake = .waitSlot f)
    (hs : chooseSlot s.sc (cardSlot s) = none) : CardsNext s :=
  ⟨.inl hb, fun _ h => (nomatch hi.symm.trans h), fun _ _ => .inr hs⟩

def ready (s : State) : State := { s with cli := { s.cli with ready := true } }
def lastCard : Card := { card0 with kind := .chip 5 2 2 3 }
/-- The last card of a break-in's job in flight. -/
def breakInEnds : State :=
  let t := inFlight { job0 with nextPos := 1, nextCopy := 2 } lastCard base
  { t with cs := { t.cs with
      breakIn := some { phase := .running, interrupted := 6, key := none, sheetCount := none, cls := 2, retries := 1 } } }

def retrying (cause : Cause) : State :=
  let t := withQueue [.job job0] (withSlot 3 (.held .queued chip0) base)
  { t with
    cs := { t.cs with current := some 5, retry := some 2 }
    cli := { t.cli with failed := some (9, cause) } }
def breakIn0 (p : BreakPhase) : BreakIn :=
  { phase := p, interrupted := 5, key := none, sheetCount := none, cls := 3, retries := 2 }
/-- A break-in in progress between two cards, with a retry or with none. -/
def inBreak (p : BreakPhase) (retry : Option Nat) : State :=
  let t := retrying .timeout
  ready { t with cs := { t.cs with breakIn := some (breakIn0 p), retry := retry } }

theorem witness_SelectionOrder :
    ((selectJob breaking).map Job.id = some 6 ∧ selectJob base = none ∧ breaking.cs.retry = none
      ∧ breaking.cs.breakIn = none ∧ currentJob breaking = some job0 ∧ breakInJob breaking job0 = some urgentJob
      ∧ breakInJob { breaking with cs := { breaking.cs with last := .separator } } job0 = none
      ∧ (job0.cards[job0.nextPos]?).isSome = true ∧ breaking.cs.last = .job job0.id
      ∧ (classAt breaking.mu job0.cls).yield = true
      ∧ ((jobsAhead breaking.cs.queue).filter (fun k =>
          k.id != 5 && (classAt breaking.mu k.cls).level == 3 && (classAt breaking.mu k.cls).breakIn)) = [urgentJob]
      ∧ markerReady (ready breaking) = false ∧ (ready breaking).cli.card = none ∧ (ready breaking).sc.mode ≠ .retaining
      ∧ (chooseCard (ready breaking)).isSome = true ∧ chooseCard (ready base) = none ∧ base.cli.ready = false
      ∧ breakInEnds.cli.card = some lastCard ∧ (9 : Word16).toNat = lastCard.tray
      ∧ (findJob 5 breakInEnds.cs.queue).map Job.nextCopy = some 2 ∧ breakInEnds.cs.breakIn.isSome = true
      ∧ breakInEnds.cs.retry = none)
    ∧ ((retrying .feed).cs.retry = some 2 ∧ (retrying .feed).cs.breakIn = none
      ∧ currentJob (retrying .feed) = some job0
      ∧ (inBreak .opening none).cs.retry = none ∧ (inBreak .opening none).cs.breakIn = some (breakIn0 .opening)
      ∧ (inBreak .closing (some 3)).cs.retry = some 3 ∧ (inBreak .closing (some 3)).cs.breakIn = some (breakIn0 .closing)
      ∧ currentJob (inBreak .running (some 2)) = some job0)
    ∧ CardsNext (ready breaking) ∧ NoRelease (ready breaking) :=
  ⟨by decide +kernel, by decide +kernel, cards_next _ rfl rfl⟩

def readBurst (row : Nat) : ReadBurst := { slot := 3, row := row, active := true, discard := false, release := false }
def sendingAt (n : Nat) : State :=
  let t := inFlight job0 { card0 with state := .sending, nextLine := n } base
  { t with sc := { t.sc with read := some (readBurst n) } }

/-- A retry pending, of a chip card, of one within a break-in and of a separator; the separators of a break-in; a row read for a
card that has ended. -/
theorem witness_retry_and_separator :
    (∀ s, s ∈ [ready (retrying .timeout), inBreak .running (some 2), inBreak .closing (some 2), inBreak .opening none] →
      markerReady s = false ∧ s.cli.card = none ∧ s.cli.ready = true ∧ s.sc.mode ≠ .retaining
        ∧ s.cli.failed = some (9, .timeout) ∧ slotAt s.sc 3 = .held .queued chip0 ∧ currentJob s = some job0)
    ∧ ((ready (retrying .timeout)).cs.retry = some 2 ∧ (ready (retrying .timeout)).cs.breakIn = none
      ∧ chooseCard (inBreak .closing (some 2)) = some (inBreak .closing (some 2), .separatorClose, 2)
      ∧ (inBreak .opening none).cs.retry = none
      ∧ chooseCard (inBreak .opening none) = some (inBreak .opening none, .separatorOpen, 1))
    ∧ (let s := withRead { readBurst 2911 with discard := true } (sendingAt 0)
       activeRead s = some { readBurst 2911 with discard := true } ∧ readFits 3 2911 = true
         ∧ s.cli.card = some { card0 with state := .sending, nextLine := 0 })
    ∧ (CardsNext (ready (retrying .timeout)) ∧ NoRelease (ready (retrying .timeout)))
    ∧ ∀ p r, CardsNext (inBreak p r) ∧ NoRelease (inBreak p r) :=
  ⟨by decide +kernel, by decide +kernel, by decide +kernel, cards_next _ rfl rfl, fun _ _ => cards_next _ rfl rfl⟩
/-- R141, R154, R156: READY opens the pending retry as attempt 2 under tray sequence 9; the retry of a separator goes on at once
to CARD CLOSE. -/
theorem test_retry_opened :
    (let t := fun s => (after (.recorderState true) { s with cli := { s.cli with ready := false } }).cli
     (((t (retrying .timeout)).card.map Card.attempt, (t (retrying .timeout)).card.map Card.tray),
      (t (inBreak .closing (some 2))).card.map Card.state, (t (inBreak .closing (some 2))).card.map Card.tray))
      = ((some 2, some 9), some .awaiting, some 9) := by decide +kernel

/-- A boundary with a current job; the read bursts of lines 2,910 and 2,911; a state equal to the one held; NOT_READY for an
AWAITING and a SENDING card; READY for a PAUSED one with a row buffered at lines 2,910 and 2,911, and with none. -/
theorem witness_CardSentAndPaused :
    (let s := ready { withQueue [.job job0] (withSlot 3 (.held .queued chip0) base) with
       cs := { base.cs with queue := [.job job0], current := some 5 } }
     (s.cli.card = none ∧ s.cli.ready = true ∧ markerReady s = false ∧ s.sc.mode ≠ .retaining ∧ s.sc.read = none
       ∧ s.cs.retry = none ∧ s.cs.breakIn = none ∧ currentJob s = some job0 ∧ breakInJob s job0 = none
       ∧ job0.cards[job0.nextPos]? = some { slot := 3, sheet := 1, roll := 40, ordinal := 7 }
       ∧ 3 < s.sc.slots.length ∧ slotAt s.sc 3 = .held .queued chip0) ∧ CardsNext s ∧ NoRelease s)
    ∧ (activeRead (sendingAt 2910) = some (readBurst 2910) ∧ readFits 3 2910 = true
      ∧ (sendingAt 2910).cli.card = some { card0 with state := .sending, nextLine := 2910 }
      ∧ slotAt (sendingAt 2910).sc 3 = .held .recording chip0
      ∧ activeRead (sendingAt 2911) = some (readBurst 2911) ∧ readFits 3 2911 = true
      ∧ (sendingAt 2911).cli.card = some { card0 with state := .sending, nextLine := 2911 })
    ∧ (base.cli.ready ≠ true ∧ base.cli.card = none ∧ (inFlight job0 card0 base).cli.ready ≠ false
      ∧ (inFlight job0 card0 base).cli.card = some card0 ∧ (sendingAt 5).cli.ready ≠ false)
    ∧ ∀ n, n ∈ [2910, 2911] → ∀ row, row ∈ [none, some [(1 : Byte)]] →
      (let c := { card0 with state := .paused, nextLine := n, buffer := row }
       let s := inFlight job0 c base
       s.cli.card = some c ∧ slotAt s.sc 3 = .held .recording chip0 ∧ s.sc.read = none
         ∧ ({ s with cli := { s.cli with ready := false } } : State).cli.ready ≠ true) :=
  ⟨⟨by decide +kernel, cards_next _ rfl rfl⟩, by decide +kernel, by decide +kernel, by decide +kernel⟩

def separating (p : BreakPhase) (k : CardKind) : State :=
  let t := inFlight job0 { card0 with kind := k } base
  { t with cs := { t.cs with breakIn := some (breakIn0 p) } }

/-- Copy 1 of 2, copy 2 of 2 at position 1 of 2, and the last copy of the last position; the two separators. -/
theorem witness_CardAcceptedCompletes :
    (let s := inFlight job0 card0 base
     s.cli.card = some card0 ∧ card0.state = .awaiting ∧ (9 : Word16).toNat = card0.tray ∧ card0.kind = .chip 5 1 1 3
       ∧ findJob 5 s.cs.queue = some job0 ∧ job0.nextCopy = 1 ∧ 3 < s.sc.slots.length ∧ bankOf 3 < s.sc.banks
       ∧ slotAt s.sc 3 = .held .recording chip0 ∧ 1 < job0.copies ∧ job0.nextPos < job0.cards.length)
    ∧ (let j := { job0 with nextCopy := 2 }
       let s := inFlight j { card0 with kind := .chip 5 1 2 3 } base
       findJob 5 s.cs.queue = some j ∧ j.copies ≤ 2 ∧ j.nextPos + 1 < j.cards.length)
    ∧ (let j := { job0 with nextCopy := 2, nextPos := 1 }
       let s := inFlight j { card0 with kind := .chip 5 2 2 3 } base
       findJob 5 s.cs.queue = some j ∧ j.copies ≤ 2 ∧ j.cards.length ≤ j.nextPos + 1)
    ∧ (separating .opening .separatorOpen).cs.breakIn = some (breakIn0 .opening)
    ∧ (separating .opening .separatorOpen).cli.card = some { card0 with kind := .separatorOpen }
    ∧ (separating .closing .separatorClose).cs.breakIn = some (breakIn0 .closing)
    ∧ (separating .closing .separatorClose).cli.card = some { card0 with kind := .separatorClose } := by decide +kernel

/-- Attempts 1 and 2 of a job with one retry, by a spoil and by the timer. -/
theorem witness_FailedAttempt :
    (Fails (inFlight job0 card0 base) card0 (.cardSpoiled 9 .punch) .punch
      ∧ Fails (inFlight job0 card0 base) card0 .responseTimerExpiry .timeout)
    ∧ (inFlight job0 card0 base).cli.card = some card0 ∧ card0.state = .awaiting ∧ card0.kind = .chip job0.id 1 1 3
      ∧ findJob job0.id (inFlight job0 card0 base).cs.queue = some job0
      ∧ slotAt (inFlight job0 card0 base).sc 3 = .held .recording chip0
      ∧ 3 < (inFlight job0 card0 base).sc.slots.length ∧ bankOf 3 < (inFlight job0 card0 base).sc.banks
      ∧ card0.attempt ≤ job0.retries ∧ job0.retries < ({ card0 with attempt := 2 } : Card).attempt :=
  ⟨⟨.spoiled 9 .punch rfl, .timeout rfl⟩, by decide +kernel⟩

/-- No card in flight, with the failed-attempt record of a timeout and with none; a card in flight that the echo does not
answer; records that fail their tests. -/
theorem witness_RecorderRecordsNotTaken :
    answered (retrying .timeout) 9 = none ∧ withdrawable (retrying .timeout) 9 = true
      ∧ presentKind (retrying .timeout) = some (.chip 5 1 1 3) ∧ withdrawable (retrying .feed) 9 = false
      ∧ failedEcho (retrying .timeout) 8 = false ∧ answered (inFlight job0 card0 base) 8 = none
      ∧ withdrawable (inFlight job0 card0 base) 8 = false
      ∧ checkHolds { sealRecord 0xD3 [] with check := 0 } = false ∧ nat8 [2] 0 = 2
      ∧ (sealRecord 0xCF []).kind.toNat < 0xD0 ∧ 0xD3 < (sealRecord 0xD4 []).kind.toNat := by decide +kernel

theorem witness_CardCancelRejects :
    mgmtHead (withMgmt .cardCancel base) = some (7, .cardCancel) ∧ base.cli.card = none
      ∧ mgmtHead (withMgmt .cardCancel (sendingAt 5)) = some (7, .cardCancel)
      ∧ (sendingAt 5).cli.card = some { card0 with state := .sending, nextLine := 5 }
      ∧ (sendingAt 5).sc.read = some (readBurst 5) := by decide +kernel

/-- Two HELD sets, record 7 the older. -/
def heldPair (s : State) : State :=
  withSet 7 (shortRecord .held 2) (withSet 6 { shortRecord .held 2 with opening := some 1 } s)
def noneEmpty (s : State) : State :=
  { s with sau := { s.sau with sets := List.replicate 7 (shortRecord .closed 2) ++ [shortRecord .held 2] } }
/-- A HELD set of three sheets that misses sheet 3 only. -/
def oneMissing : SetRecord :=
  { shortRecord .held 2 with sheets := .filed 4 40 7 {} :: .spilled :: List.replicate 62 .empty }
def group63 (s : State) : State :=
  { s with sau := { s.sau with group := List.replicate 63 { slot := 9, roll := 1, ordinal := 5, flags := {} } } }

/-- END of a complete set and of a short one under SEND with an entry free; START over a record with no key, short under HOLD
and complete; START with a HELD set and none EMPTY, an entry free and none; a fill that completes a set and one that does
not; the 64th frame; each step of a pressure release. -/
theorem witness_SetsSentOn :
    (let s := fun r => withFilm (.target tEnd) (sendClass (withSet 7 r base))
     headTarget .endSet (s completeRecord) = some tEnd ∧ currentSet (s completeRecord).sau = some 7
       ∧ (completeRecord.title.isSome = true ∧ setCards completeRecord ≠ [] ∧ setComplete completeRecord = true)
       ∧ (s completeRecord).sau.backlog = [] ∧ entryFree (s completeRecord) = true
       ∧ currentSet (s (shortRecord .opened 3)).sau = some 7 ∧ setComplete (shortRecord .opened 3) = false
       ∧ (classAt (s (shortRecord .opened 3)).mu 3).short = .send
       ∧ (withNotices 31 (s (shortRecord .opened 3))).fli.notices.length < 32)
    ∧ (let s := fun r => withFilm (.target tStart) (withNotices 30 (withSet 7 r base))
       headTarget .start (s openSetRecord) = some tStart ∧ currentSet (s openSetRecord).sau = some 7
         ∧ (s openSetRecord).fli.notices.length < 31 ∧ openSetRecord.title = none
         ∧ emptyRecord { (s openSetRecord).sau with sets := (s openSetRecord).sau.sets.set 7 .blank } = some 0
         ∧ setComplete (shortRecord .opened 2) = false ∧ (classAt (s (shortRecord .opened 2)).mu 2).short = .hold
         ∧ emptyRecord (s (shortRecord .opened 2)).sau = some 0
         ∧ currentSet (s completeRecord).sau = some 7 ∧ (s completeRecord).sau.backlog = []
         ∧ entryFree (s completeRecord) = true
         ∧ emptyRecord { (s completeRecord).sau with sets := (s completeRecord).sau.sets.set 7 .blank } = some 0)
    ∧ (let s := withFilm (.target tStart) (noneEmpty base)
       (headTarget .start s = some tStart ∧ currentSet s.sau = none ∧ emptyRecord s.sau = none
         ∧ setCards (setAt s.sau 7) ≠ [] ∧ s.sau.backlog = [] ∧ entryFree s = true ∧ entryFree (fullOfJobs s) = false)
       ∧ OldestHeld s.sau none 7)
    ∧ (let f := { frame with dest := .set 7, entry := some (matchedSheet 3) }
       let g := { frame with dest := .set 7, entry := some (matchedSheet 2) }
       let s := closing f (withSet 7 oneMissing base)
       (activeWrite s = some burst0 ∧ s.rs.work = .margins false [] ∧ (setAt s.sau 7).state = .held
         ∧ oneMissing.title.map Title.sheetCount = some 3 ∧ (matchedSheet 3).sheet ≤ 64
         ∧ (∀ i, i < 3 → i ≠ 2 → ((setAt s.sau 7).sheets.getD i .empty).present = true)
         ∧ (closing g (withSet 7 oneMissing base)).rs.intake = .receiving g
         ∧ ((setAt s.sau 7).sheets.getD 2 .empty).present = false
         ∧ activeWrite (closing frame (group63 base)) = some burst0 ∧ (closing frame (group63 base)).sau.group.length = 63))
    ∧ (let f := { waitingFrame with dest := .set 6 }
       OldestHeld (heldPair base).sau (some f.dest) 7 ∧ OldestHeld (heldPair base).sau (some waitingFrame.dest) 7
         ∧ (∀ i, i < 8 → (setAt (withSet 6 (shortRecord .held 2) (group63 base)).sau i).state = .held → f.dest = .set i)
         ∧ groupState (group63 base).sau = .collecting ∧ waitingFrame.dest = .group
         ∧ currentSet (withSet 7 (shortRecord .opened 2) base).sau = some 7 ∧ setCards (shortRecord .opened 2) ≠ []
         ∧ base.sau.backlog = [] ∧ currentSet (withSet 7 openSetRecord base).sau = some 7 ∧ setCards openSetRecord = []) := by
  refine ⟨by decide +kernel, by decide +kernel, ⟨by decide +kernel, ?_⟩, by decide +kernel, ?_, ?_, by decide +kernel⟩ <;>
    exact ⟨by decide +kernel, by decide +kernel, by decide +kernel, by decide +kernel⟩

theorem witness_RecorderRestartedFails :
    base.cli.card = none ∧ (inFlight job0 card0 base).cli.card = some card0
      ∧ card0.attempt ≤ retriesOf (inFlight job0 card0 base) card0.kind
      ∧ retriesOf (inFlight job0 { card0 with attempt := 2 } base) card0.kind < ({ card0 with attempt := 2 } : Card).attempt := by
  decide +kernel

def withBacklog (b : List BacklogItem) (s : State) : State := { s with sau := { s.sau with backlog := b } }
/-- A frame that waits with no slot FREE and none in the card path. -/
def starved : State :=
  let t := withIntake (.waitSlot waitingFrame) (noSlot .filed)
  { t with sc := { t.sc with askAgain := true } }

/-- Each backlog item with an entry free, a spill request of its set and of one that has gone; a reservation; a slot; a marker
at the head, alone (batch 1 and 65,535) and with a release to ask for; a release alone. -/
theorem witness_WhatFollows :
    (entryFree (withBacklog [.marker] base) = true
      ∧ entryFree (withBacklog [.marker] (withIntake (.waitTarget tBatch) base)) = true
      ∧ entryFree (withBacklog [.set 7, .marker] (withSet 7 (shortRecord .closed 2) base)) = true
      ∧ entryFree (withBacklog [.group] (group63 base)) = true
      ∧ (let s := withBacklog [.spill 7 0] (withSet 7 (shortRecord .opened 2) base)
         entryFree s = true ∧ (setAt s.sau 7).state = .opened ∧ (setAt s.sau 7).opening = some 0
           ∧ setCards (setAt s.sau 7) ≠ [] ∧ (setAt s.sau 6).state ≠ .opened)
      ∧ (withIntake (.waitReservation waitingFrame) base).rs.intake = .waitReservation waitingFrame
      ∧ (let s := withIntake (.waitSlot waitingFrame) { base with rs := { base.rs with geometry := some small } }
         s.rs.intake = .waitSlot waitingFrame ∧ s.sau.backlog = [] ∧ s.mu.purgeTag = none ∧ s.rs.geometry = some small
           ∧ chooseSlot s.sc (cardSlot s) = some 0)
      ∧ (let s := withNotices 31 (withQueue [.marker, .marker] base)
         s.cs.queue = .marker :: [.marker] ∧ s.cli.card = none ∧ s.sc.mode ≠ .retaining ∧ s.fli.notices.length < 32)
      ∧ starved.rs.intake = .waitSlot waitingFrame ∧ starved.mu.purgeTag = none ∧ starved.sc.askAgain = true
      ∧ cardPathHolds starved.sc = false ∧ markerReady starved = false
      ∧ (withQueue [.marker] starved).cs.queue = .marker :: [])
    ∧ (CardsNext (withQueue [.marker, .marker] base) ∧ NoRelease (withQueue [.marker, .marker] base))
    ∧ CardsNext starved ∧ CardsNext (withQueue [.marker] starved) :=
  ⟨by decide +kernel, cards_next _ rfl rfl,
    cards_next_waiting _ waitingFrame (by decide +kernel) (by decide +kernel) (by decide +kernel),
    cards_next_waiting _ waitingFrame (by decide +kernel) (by decide +kernel) (by decide +kernel)⟩

/-! ### Witnesses: setup, status and resets -/

def thinOff : State :=
  { base with dm := { base.dm with enable := false, state := .thin, last := some { roll := 40, ordinal := 14, db := 30 } } }

/-- Equal thresholds, 256, an enable of 2; Table 5-3 step 13; and RECORDER SETUP at its bounds. -/
theorem witness_SetupRecords :
    mgmtHead (withMgmt (.monitorSetup 20 20 40 1) base) = some (7, .monitorSetup 20 20 40 1)
      ∧ mgmtHead (withMgmt (.monitorSetup 8 20 40 2) base) = some (7, .monitorSetup 8 20 40 2)
      ∧ mgmtHead (withMgmt (.monitorSetup 8 20 255 1) thinOff) = some (7, .monitorSetup 8 20 255 1)
      ∧ thinOff.dm.enable = false ∧ thinOff.dm.state = .thin
      ∧ thinOff.dm.last = some { roll := 40, ordinal := 14, db := 30 } ∧ base.dm.enable = true
      ∧ mgmtHead (withMgmt (.recorderSetup 50 8000) base) = some (7, .recorderSetup 50 8000)
      ∧ mgmtHead (withMgmt (.recorderSetup 201 250) base) = some (7, .recorderSetup 201 250) := by decide +kernel

theorem witness_StatusRecords :
    mgmtHead (withMgmt .statusRead base) = some (7, .statusRead)
      ∧ mgmtHead (withMgmt (.statusClear 0x1F) base) = some (7, .statusClear 0x1F)
      ∧ mgmtHead (withMgmt (.unknown 0x7F) base) = some (7, .unknown 0x7F) := by decide +kernel

theorem witness_LinkResetStarts :
    mgmtHead (withMgmt .linkReset (sendingAt 5)) = some (7, .linkReset) ∧ (sendingAt 5).sc.mode = .active
      ∧ mgmtHead (withMgmt .linkReset (withMode .retaining base)) = some (7, .linkReset)
      ∧ base.sc.forced = none ∧ slotAt (withSlot 4 (.held .filed chip0) (sendingAt 5)).sc 4 = .held .filed chip0
      ∧ slotBusy (sendingAt 5).sc 4 = false ∧ bankOf 4 < (sendingAt 5).sc.banks
      ∧ slotAt (applyBanks 1 base.sc) 511 = .offline := by decide +kernel

/-- An active write burst and an active read burst, each on a slot that holds a chip; both waiting; a refresh running; a
forced one pending with a deferred refresh to run and with one owed. -/
theorem witness_LinkResetStarts_store :
    (let s := withWrite burst0 (withRead leftRead (withSlot 3 (.held .filling chip0) (withSlot 4 (.held .queued chip0) base)))
     mgmtHead (withMgmt .linkReset s) = some (7, .linkReset) ∧ s.sc.write = some burst0 ∧ burst0.active = true
       ∧ s.sc.read = some leftRead ∧ leftRead.active = true ∧ slotBusy s.sc 3 = true ∧ slotBusy s.sc 4 = true
       ∧ slotAt s.sc 3 = .held .filling chip0 ∧ slotAt s.sc 4 = .held .queued chip0)
    ∧ (∀ d, d ∈ [(8, 0), (0, 1)] →
       let s := { base with sc := { base.sc with deferral := d.1, forced := some d.2 } }
       mgmtHead (withMgmt .linkReset s) = some (7, .linkReset) ∧ s.sc.refresh = none ∧ burstActive s.sc = false
         ∧ (0 < s.sc.deferral ∨ 0 < d.2)) := by decide +kernel

/-- R93 steps 1, 2 and 4: the active write burst goes on and the waiting read burst is dropped. -/
theorem test_link_reset_bursts :
    (let t := after .linkReset (withMgmt .linkReset (withWrite burst0 (withRead { leftRead with active := false }
       (withSlot 3 (.held .filling chip0) (withSlot 4 (.held .queued chip0) base)))))
     (t.sc.write, t.sc.read, slotAt t.sc 3, slotAt t.sc 4))
      = (some { burst0 with aborted := true }, none, .held .filling chip0, .free) := by decide +kernel

theorem witness_LinkResetCompletes :
    (let s := { base with mu := { base.mu with resetTag := some 12 } }
     s.mu.resetTag = some 12 ∧ s.sc.write = none ∧ s.sc.read = none ∧ s.sc.refresh = none ∧ s.sc.forced = none
       ∧ s.sc.mode = .active)
    ∧ (withMode .waking { base with mu := { base.mu with resetTag := some 12 } }).sc.mode ≠ .active := by decide +kernel

/-- R54, R176: a notice in sending as LINK RESET completes is discarded, no record leaves, and the reply is sent next. -/
theorem test_reset_discards_notice_in_sending :
    (let t := after .linkResetComplete { sendingNotice with mu := { base.mu with resetTag := some 12 } }
     (t.fli.notices.length, t.fli.sending, t.returnOut.length, t.fli.replies.map Reply.tag))
      = (0, some .reply, 0, [12]) := by decide +kernel

end Sys2Proof.Tests
end

section
/-! SUPPORT. The limits of R5, R103, R135, R167, R171 and R172 and the forms of the tables (R1, R21, R23, R32, R100,
R113): the relation `Keeps` between the states before and after an operation, and one lemma for each operation of the
blocks. -/

namespace Sys2Proof.Machine

-- Checked one after another, as the tests are, to hold the memory and the threads down.
set_option Elab.async false

/-! ### The relation -/

/-- R170, R171: the replies held, and those owed to a LINK RESET or a STORE PURGE that is not complete. -/
def repliesOwed (s : State) : Nat :=
  s.fli.replies.length + oneIf s.mu.resetTag.isSome + oneIf s.mu.purgeTag.isSome

@[simp] theorem oneIf_true : oneIf true = 1 := rfl
@[simp] theorem oneIf_false : oneIf false = 0 := rfl

theorem repliesBounded_iff (s : State) : RepliesBounded s ↔ repliesOwed s ≤ Config.replyPlaces := Iff.rfl

/-- From `s` to `t` every limit and every form of a table that holds is kept, and at most `k` replies more are held or
owed. A field left out is one that the operation does not touch. -/
structure Keeps (k : Nat) (s t : State) : Prop where
  link     : LinkBounded s → LinkBounded t := by exact fun h => ⟨h.fifo, h.notices, h.staging⟩
  replies  : repliesOwed t ≤ repliesOwed s + k := by exact Nat.le_add_right _ _
  queue    : QueueBounded s → QueueBounded t := by exact id
  deferral : DeferralBounded s → DeferralBounded t := by exact id
  classes  : ClassesStored s → ClassesStored t := by exact fun h => ⟨h.classes, h.staging⟩
  index    : IndexRising s → IndexRising t := by exact id
  lists    : ListsShaped s → ListsShaped t := by exact fun h => ⟨h.classes, h.tones, h.turns, h.sets⟩

theorem Keeps.refl (s : State) : Keeps 0 s s := {}

theorem Keeps.trans {k : Nat} {s t u : State} (h : Keeps k s t) (g : Keeps 0 t u) : Keeps k s u where
  link := g.link ∘ h.link
  replies := Nat.le_trans g.replies h.replies
  queue := g.queue ∘ h.queue
  deferral := g.deferral ∘ h.deferral
  classes := g.classes ∘ h.classes
  index := g.index ∘ h.index
  lists := g.lists ∘ h.lists

/-- What has been kept up to `t` is kept when an operation that brings a reply follows. -/
theorem Keeps.answer {k : Nat} {s t u : State} (h : Keeps 0 s t) (g : Keeps k t u) : Keeps k s u where
  link := g.link ∘ h.link
  replies := Nat.le_trans g.replies (Nat.add_le_add_right h.replies k)
  queue := g.queue ∘ h.queue
  deferral := g.deferral ∘ h.deferral
  classes := g.classes ∘ h.classes
  index := g.index ∘ h.index
  lists := g.lists ∘ h.lists

theorem Keeps.mono {k : Nat} {s t : State} (h : Keeps 0 s t) : Keeps k s t :=
  { h with replies := Nat.le_trans h.replies (Nat.le_add_right _ k) }

/-! ### Small changes of the state -/

theorem keeps_fresh (s : State) : Keeps 0 s (fresh s) := {}
theorem keeps_setIntake (i : Intake) (s : State) : Keeps 0 s (setIntake i s) := {}
theorem keeps_setWork (w : Work) (s : State) : Keeps 0 s (setWork w s) := {}
theorem keeps_emptyIntake (s : State) : Keeps 0 s (emptyIntake s) := {}
theorem keeps_rs (s : State) (rs : Rs) : Keeps 0 s { s with rs := rs } := {}
theorem keeps_joinBacklog (x : BacklogItem) (s : State) : Keeps 0 s (joinBacklog x s) := {}
theorem keeps_setPassMode (b : Bool) (s : State) : Keeps 0 s (setPassMode b s) := {}
theorem keeps_noteEntryFreed (s : State) : Keeps 0 s (noteEntryFreed s) := {}
theorem keeps_sendCard (r : LinkRecord) (s : State) : Keeps 0 s (sendCard r s) := {}
theorem keeps_setOverrun (s : State) : Keeps 0 s (setOverrun s) := {}
theorem keeps_closeGroup (s : State) : Keeps 0 s (closeGroup s) := {}

theorem keeps_placeReply (tag code : Byte) (r : ReplyResult) (s : State) : Keeps 1 s (placeReply tag code r s) where
  replies := by simp only [repliesOwed, placeReply_fli, placeReply_mu, List.length_append, List.length_singleton]; omega

theorem keeps_raiseNotice (n : Notice) (s : State) : Keeps 0 s (raiseNotice n s) := by
  rcases raiseNotice_cases n s with ⟨room, e⟩ | ⟨_, e⟩ <;> rw [e]
  · refine { link := fun h => ⟨h.fifo, ?_, h.staging⟩ }
    simp only [List.length_append, List.length_singleton]
    exact room
  · exact {}

/-- An entry changes nothing but the Card Queue, which takes it where one is free (R118). -/
theorem keeps_enqueue (e : Entry) {s : State} (h : entryFree s = true) : Keeps 0 s (enqueue e s) where
  queue := fun _ => by
    simp only [entryFree, decide_eq_true_eq] at h
    simp only [QueueBounded, enqueue_cs, List.length_append, List.length_singleton]
    exact h

/-- The Card Queue may be changed in any way that makes it no longer. -/
theorem keeps_cs {s : State} {cs : Cs} (h : cs.queue.length ≤ s.cs.queue.length) : Keeps 0 s { s with cs := cs } where
  queue := Nat.le_trans h

/-! ### The Store Controller -/

/-- The refresh deferral count and the number of turns, which no operation on slots or bursts changes. -/
def Sc.counts (sc : Sc) : Nat × Nat := (sc.deferral, sc.turns.length)

theorem keeps_sc {s : State} {sc : Sc} (h : sc.counts = s.sc.counts) : Keeps 0 s { s with sc := sc } := by
  obtain ⟨hd, ht⟩ := Prod.mk.inj h
  exact
    { deferral := fun b => Nat.le_trans (Nat.le_of_eq hd) b
      lists := fun l => ⟨l.classes, l.tones, ht.trans l.turns, l.sets⟩ }

@[simp] theorem moveSlot_counts (n : Nat) (a b : ChipState) (f : Chip → Chip) (sc : Sc) :
    (moveSlot n a b f sc).counts = sc.counts := by
  unfold moveSlot; split <;> (try split) <;> rfl
@[simp] theorem changeChip_counts (n : Nat) (f : Chip → Chip) (sc : Sc) : (changeChip n f sc).counts = sc.counts := by
  unfold changeChip; split <;> rfl
@[simp] theorem enterGapped_counts (n : Nat) (sc : Sc) : (enterGapped n sc).counts = sc.counts := changeChip_counts ..
@[simp] theorem releaseSlot_counts (n : Nat) (k : ChipState) (sc : Sc) : (releaseSlot n k sc).counts = sc.counts := by
  unfold releaseSlot; split <;> rfl
@[simp] theorem fileSlot_counts (n : Nat) (o : Owner) (g : CardFlags → CardFlags) (sc : Sc) :
    (fileSlot n o g sc).counts = sc.counts := moveSlot_counts ..
@[simp] theorem freeReplaced_counts (p : SheetPos) (sc : Sc) : (freeReplaced p sc).counts = sc.counts := by
  unfold freeReplaced; split <;> rfl
@[simp] theorem openSlot_counts (k : CardKind) (sc : Sc) : (openSlot k sc).counts = sc.counts := by
  unfold openSlot; split <;> simp
@[simp] theorem queueSlots_counts (id pos : Nat) (cs : List CardPos) (sc : Sc) :
    (queueSlots id pos cs sc).counts = sc.counts := by
  induction cs generalizing pos sc with
  | nil => rfl
  | cons c cs ih => simp [queueSlots, ih]
@[simp] theorem freeCards_counts (cs : List CardPos) (sc : Sc) : (freeCards cs sc).counts = sc.counts := by
  induction cs generalizing sc with
  | nil => rfl
  | cons c cs ih => simp [freeCards, ih]
@[simp] theorem askRead_counts (slot row : Nat) (sc : Sc) : (askRead slot row sc).counts = sc.counts := rfl
@[simp] theorem askWrite_counts (b : WriteBurst) (sc : Sc) : (askWrite b sc).counts = sc.counts := rfl
@[simp] theorem dropSlot_counts (n : Option Nat) (sc : Sc) : (dropSlot n sc).counts = sc.counts := by
  unfold dropSlot
  repeat' split
  all_goals rfl
@[simp] theorem endRead_counts (r : ReadBurst) (sc : Sc) : (endRead r sc).counts = sc.counts := by
  unfold endRead; simp only; split <;> rfl
@[simp] theorem endWrite_counts (w : WriteBurst) (sc : Sc) : (endWrite w sc).counts = sc.counts := by
  unfold endWrite; simp only; split <;> rfl
@[simp] theorem restoreSetup_counts (sc : Sc) : (restoreSetup sc).counts = sc.counts := rfl
@[simp] theorem grantBursts_counts (sc : Sc) : (grantBursts sc).counts = sc.counts := by
  unfold grantBursts
  repeat' split
  all_goals simp [grantRead, grantWrite, Sc.counts]
@[simp] theorem storeIdle_counts (sc : Sc) : (storeIdle sc).counts = sc.counts := by
  unfold storeIdle
  split
  · split
    · exact grantBursts_counts sc
    · rfl
  · split
    · rfl
    · split <;> rfl
@[simp] theorem storeSettle_counts (sc : Sc) : (storeSettle sc).counts = sc.counts := by
  unfold storeSettle
  split
  · rfl
  · split
    · split
      · rfl
      · split
        · rfl
        · split
          · rfl
          · exact storeIdle_counts _
    · exact storeIdle_counts sc
@[simp] theorem storeAfter_counts (sc : Sc) : (storeAfter sc).counts = sc.counts := storeSettle_counts _

theorem keeps_storeOnly (s : State) : Keeps 0 s (storeOnly s) := keeps_sc (storeSettle_counts _)

/-- R103: a due moment counts up the deferral count only below its limit. -/
theorem dueMoment_bounded (sc : Sc) (h : sc.deferral ≤ Config.deferralLimit) :
    (dueMoment sc).deferral ≤ Config.deferralLimit := by
  unfold dueMoment
  split
  · exact h
  · split
    · split
      · assumption
      · rw [show (storeSettle _).deferral = _ from congrArg Prod.fst (storeSettle_counts _)]; exact h
    · exact h

@[simp] theorem dueMoment_turns (sc : Sc) : (dueMoment sc).turns.length = sc.turns.length := by
  unfold dueMoment
  split
  · rfl
  · split
    · split
      · rfl
      · exact congrArg Prod.snd (storeSettle_counts _)
    · rfl

theorem keeps_refreshDue (s : State) : Keeps 0 s { s with sc := refreshDueStep s.sc } := by
  unfold refreshDueStep
  simp only
  repeat' split
  case h_2.isFalse =>
    exact
      { deferral := fun h => dueMoment_bounded _ h
        lists := fun l => ⟨l.classes, l.tones, (dueMoment_turns _).trans l.turns, l.sets⟩ }
  all_goals exact {}

/-- R104, R105: the end of a refresh never counts up. -/
theorem keeps_refreshEnd (s : State) : Keeps 0 s { s with sc := refreshEndStep s.sc } := by
  unfold refreshEndStep
  split
  · have ended : Keeps 0 s { s with sc := endRefresh s.sc } := by
      unfold endRefresh
      split
      case h_3 => exact { deferral := fun h => Nat.le_trans (Nat.sub_le _ 1) h }
      all_goals exact {}
    exact ended.trans (keeps_storeOnly _)
  · exact {}

/-! ### Set records -/


section GetD
variable {α : Type} {l : List α} {n : Nat} {d : α}

theorem getD_inside (h : n < l.length) : l.getD n d = l[n] := by
  rw [List.getD_eq_getElem?_getD, List.getElem?_eq_getElem h, Option.getD_some]

theorem getD_outside (h : l.length ≤ n) : l.getD n d = d := by
  rw [List.getD_eq_getElem?_getD, List.getElem?_eq_none h, Option.getD_none]

/-- What is read from a list by position stands in it, or is the default. -/
theorem getD_mem_or_default (l : List α) (n : Nat) (d : α) : l.getD n d ∈ l ∨ l.getD n d = d := by
  by_cases h : n < l.length
  · exact .inl (getD_inside h ▸ List.getElem_mem h)
  · exact .inr (getD_outside (Nat.le_of_not_lt h))

theorem getD_set_other {m : Nat} (x : α) (h : m ≠ n) : (l.set m x).getD n d = l.getD n d := by
  rw [List.getD_eq_getElem?_getD, List.getElem?_set_ne h, ← List.getD_eq_getElem?_getD]

end GetD

/-- R113: every record that is read has 64 sheet positions. -/
theorem setAt_sheets_length {s : State} (h : ListsShaped s) (n : Nat) :
    (setAt s.sau n).sheets.length = Config.sheetPositions := by
  rcases getD_mem_or_default s.sau.sets n .blank with mem | default
  · exact h.sets.2 _ mem
  · exact congrArg (fun r => r.sheets.length) default

/-- A record of 64 sheet positions takes the place of another. -/
theorem keeps_putSet {s : State} {n : Nat} {r : SetRecord}
    (h : ListsShaped s → r.sheets.length = Config.sheetPositions) : Keeps 0 s { s with sau := putSet n r s.sau } where
  lists := fun l => ⟨l.classes, l.tones, l.turns, by rw [putSet, List.length_set]; exact l.sets.1, fun x hx => by
    rcases List.mem_or_eq_of_mem_set hx with hx | rfl
    · exact l.sets.2 x hx
    · exact h l⟩

theorem keeps_changeSet {s : State} {n : Nat} {r : SetRecord}
    (h : ListsShaped s → r.sheets.length = Config.sheetPositions) : Keeps 0 s (changeSet n r s) :=
  (keeps_putSet h).trans {}

theorem keeps_emptySet (n : Nat) (s : State) : Keeps 0 s (emptySet n s) := keeps_changeSet fun _ => rfl

theorem keeps_closeSet (n : Nat) (b : Bool) (s : State) : Keeps 0 s (closeSet n b s) := by
  unfold closeSet
  simp only
  split
  · exact keeps_emptySet n s
  · exact (keeps_changeSet (by exact fun l => setAt_sheets_length l n)).trans (keeps_joinBacklog ..)

/-! ### The Card Queue and the backlog (R118, R127, R129, R130) -/

theorem keeps_takeJob (j : Job) (s : State) : Keeps 0 s (takeJob j s) :=
  (keeps_sc (queueSlots_counts ..)).trans {}

theorem keeps_placeJob (j : Job) {s : State} (h : entryFree s = true) : Keeps 0 s (placeJob j s) :=
  (keeps_takeJob j s).trans (keeps_enqueue _ h)

theorem keeps_placeSpill (n o : Nat) {s : State} (h : entryFree s = true) : Keeps 0 s (placeSpill n o s) := by
  unfold placeSpill
  simp only
  split
  · exact (keeps_placeJob _ h).trans (keeps_putSet fun l => List.length_map _ |>.trans (setAt_sheets_length l n))
  · exact .refl s

theorem keeps_placeMarker {s : State} (h : entryFree s = true) : Keeps 0 s (placeMarker s) := by
  refine (keeps_enqueue .marker h).trans ?_
  unfold placeMarker
  simp only
  split
  · exact keeps_rs ..
  all_goals exact .refl _

/-- R118: an item is placed in a free entry. -/
theorem keeps_placeItem (x : BacklogItem) {s : State} (h : entryFree s = true) : Keeps 0 s (placeItem x s) := by
  cases x with
  | set n => exact (keeps_placeJob _ h).trans (keeps_emptySet ..)
  | group => exact (keeps_placeJob _ h).trans {}
  | spill n o => exact keeps_placeSpill n o h
  | marker => exact keeps_placeMarker h

theorem keeps_placeHead {s : State} (h : entryFree s = true) : Keeps 0 s (placeHead s) := by
  unfold placeHead
  split
  · exact .refl s
  · rename_i x xs _
    exact Keeps.trans (t := { s with sau := { s.sau with backlog := xs } }) {} (keeps_placeItem x h)

theorem keeps_serveBacklog (n : Nat) (s : State) : Keeps 0 s (serveBacklog n s) := by
  induction n generalizing s with
  | zero => exact .refl s
  | succ n ih =>
    unfold serveBacklog
    split
    · rename_i h; exact (keeps_placeHead h.2).trans (ih _)
    · exact .refl s

theorem keeps_drainBacklog (s : State) : Keeps 0 s (drainBacklog s) := keeps_serveBacklog ..

/-! ### Targets and pressure release (R125 to R128) -/

theorem keeps_endSet (n roll ordinal : Nat) (s : State) : Keeps 0 s (endSet n roll ordinal s) := by
  unfold endSet
  simp only
  split
  · exact keeps_emptySet n s
  · split
    · exact keeps_closeSet ..
    · split
      · exact (keeps_changeSet (by exact fun l => setAt_sheets_length l n)).trans (keeps_raiseNotice ..)
      · exact (keeps_closeSet ..).trans (keeps_raiseNotice ..)

theorem keeps_openRecord (n : Nat) (s : State) : Keeps 0 s (openRecord n s) :=
  (keeps_changeSet fun _ => rfl).trans {}

theorem keeps_forceOut (n roll ordinal d : Nat) (s : State) : Keeps 0 s (forceOut n roll ordinal d s) :=
  (keeps_closeSet ..).trans (keeps_raiseNotice ..)

theorem keeps_openOrForce (t : Target) (s : State) : Keeps 0 s (openOrForce t s) := by
  unfold openOrForce
  split
  · exact keeps_openRecord ..
  · split
    · exact keeps_setPassMode ..
    · rename_i n _
      refine ((keeps_forceOut n t.roll t.ordinal 1 s).trans (keeps_drainBacklog _)).trans ?_
      simp only
      split
      · exact keeps_openRecord ..
      · exact keeps_setPassMode ..

theorem keeps_startTargetOp (t : Target) (s : State) : Keeps 0 s (startTargetOp t s) := by
  unfold startTargetOp
  split
  · exact keeps_openOrForce ..
  · exact (((keeps_raiseNotice ..).trans (keeps_endSet ..)).trans (keeps_drainBacklog _)).trans (keeps_openOrForce ..)

theorem keeps_endTargetOp (t : Target) (s : State) : Keeps 0 s (endTargetOp t s) := by
  unfold endTargetOp
  split
  · exact keeps_setPassMode ..
  · exact ((keeps_endSet ..).trans (keeps_drainBacklog _)).trans (keeps_setPassMode ..)

theorem keeps_endBatch (t : Target) (s : State) : Keeps 0 s (endBatch t s) := by
  have ended : Keeps 0 s (match currentSet s.sau with
      | none => s
      | some n => endSet n t.roll t.ordinal s) := by
    split
    · exact .refl s
    · exact keeps_endSet ..
  have grouped (u : State) : Keeps 0 u (if groupState u.sau = .collecting then closeGroup u else u) := by
    split
    · exact keeps_closeGroup u
    · exact .refl u
  exact ((ended.trans (keeps_setPassMode false _)).trans (grouped _)).trans (keeps_joinBacklog .marker _)

theorem keeps_batchEndOp (t : Target) (s : State) : Keeps 0 s (batchEndOp t s) :=
  ((keeps_endBatch t s).trans (keeps_rs ..)).trans (keeps_drainBacklog _)

theorem keeps_targetOp (t : Target) (s : State) : Keeps 0 s (targetOp t s) := by
  refine (keeps_rs s { s.rs with intake := .idle }).trans ?_
  unfold targetOp
  simp only
  split
  · exact keeps_startTargetOp ..
  · exact keeps_endTargetOp ..
  · exact keeps_batchEndOp ..

theorem keeps_requestSpill (s : State) : Keeps 0 s (requestSpill s) := by
  unfold requestSpill
  split
  · exact .refl s
  · simp only
    split
    · exact keeps_joinBacklog ..
    · exact .refl s

theorem keeps_askRelease (f : FrameCtx) (s : State) : Keeps 0 s (askRelease f s) := by
  refine (keeps_sc (sc := { s.sc with askAgain := false }) rfl).trans ?_
  unfold askRelease pressureRelease
  split
  · exact keeps_forceOut ..
  · split
    · exact keeps_closeGroup _
    · exact keeps_requestSpill _

theorem keeps_releaseReservation (s : State) : Keeps 0 s (releaseReservation s) := by
  have shorter (q : List Entry) : (dropReservation q).length ≤ q.length := by
    induction q with
    | nil => exact Nat.le_refl _
    | cons e es ih =>
      unfold dropReservation
      split
      · exact Nat.le_succ _
      · exact Nat.succ_le_succ ih
  unfold releaseReservation
  split
  · exact (keeps_cs (shorter _)).trans (keeps_noteEntryFreed _)
  · exact .refl s

/-! ### Filing (R121 to R124) -/

theorem keeps_fileIntoSet (n slot : Nat) (f : FrameCtx) (m : Matched) (s : State) :
    Keeps 0 s (fileIntoSet n slot f m s) := by
  have close (c : Prop) [Decidable c] (x : State) : Keeps 0 x (if c then closeSet n false x else x) := by
    split
    · exact keeps_closeSet ..
    · exact .refl x
  have entered {sc : Sc} {r : SetRecord} (hsc : sc.counts = s.sc.counts)
      (hr : r.sheets.length = (setAt s.sau n).sheets.length) : Keeps 0 s { s with sc := sc, sau := putSet n r s.sau } :=
    (keeps_putSet fun l => hr.trans (setAt_sheets_length l n)).trans (keeps_sc hsc)
  exact (entered (by simp) (by simp)).trans (close ..)

theorem keeps_fileIntoGroup (slot : Nat) (f : FrameCtx) (s : State) : Keeps 0 s (fileIntoGroup slot f s) := by
  unfold fileIntoGroup
  simp only
  split
  · exact ((keeps_sc (fileSlot_counts ..)).trans {}).trans (keeps_closeGroup _)
  · exact (keeps_sc (fileSlot_counts ..)).trans {}

@[simp] theorem fillReservation_length (e : Entry) (q : List Entry) : (fillReservation e q).length = q.length := by
  induction q with
  | nil => rfl
  | cons x xs ih => unfold fillReservation; split <;> simp [ih]

theorem keeps_filePassThrough (slot : Nat) (f : FrameCtx) (s : State) : Keeps 0 s (filePassThrough slot f s) :=
  ((keeps_sc (fileSlot_counts ..)).trans (keeps_takeJob ..)).trans (keeps_cs (Nat.le_of_eq (fillReservation_length ..)))

theorem keeps_fileFrame (f : FrameCtx) (slot : Nat) (s : State) : Keeps 0 s (fileFrame f slot s) := by
  unfold fileFrame
  split
  · exact keeps_fileIntoSet ..
  · exact .refl s
  · exact keeps_fileIntoGroup ..
  · exact keeps_filePassThrough ..

end Sys2Proof.Machine
end

section
/-! SUPPORT. What the cards, the intake, the store and everything that follows from a change keep of the limits. -/

namespace Sys2Proof.Machine

-- Checked one after another, as the tests are, to hold the memory and the threads down.
set_option Elab.async false

/-! ### The card path (R138 to R163) -/

theorem keeps_cli (s : State) (cli : Cli) : Keeps 0 s { s with cli := cli } := {}

theorem keeps_closeCard (c : Card) (s : State) : Keeps 0 s (closeCard c s) := {}

theorem keeps_nextStep (c : Card) (slot : Nat) (s : State) : Keeps 0 s (nextStep c slot s) := by
  unfold nextStep
  repeat' split
  · exact keeps_closeCard c s
  · exact keeps_sc (askRead_counts ..)
  · exact .refl s

theorem keeps_pumpChip (c : Card) (slot : Nat) (s : State) : Keeps 0 s (pumpChip c slot s) := by
  unfold pumpChip
  split
  · rename_i row _
    exact Keeps.trans (t := sendLine c slot row s) {} (keeps_nextStep ..)
  · exact keeps_nextStep ..

theorem keeps_pump (s : State) : Keeps 0 s (pump s) := by
  unfold pump
  split
  · exact .refl s
  · split
    · exact .refl s
    · exact .refl s
    · split
      · exact keeps_pumpChip ..
      · exact keeps_closeCard ..
      · exact keeps_closeCard ..

theorem keeps_openCard (k : CardKind) (a : Nat) (s : State) : Keeps 0 s (openCard k a s) := by
  unfold openCard
  refine Keeps.trans ?_ (keeps_pump _)
  exact (keeps_sc (openSlot_counts k s.sc)).trans {}

theorem keeps_endSlot (k : CardKind) (v : Verdict) (s : State) : Keeps 0 s (endSlot k v s) := by
  unfold endSlot
  split
  · split
    · exact keeps_sc (releaseSlot_counts ..)
    · exact keeps_sc (moveSlot_counts ..)
  all_goals exact .refl s

@[simp] theorem changeJob_length (id : Nat) (f : Job → Job) (q : List Entry) :
    (changeJob id f q).length = q.length := by
  induction q with
  | nil => rfl
  | cons e es ih => cases e <;> simp [changeJob, ih]

/-- R141, R142: progress changes a job in its place, and a job that ends leaves the queue. -/
theorem keeps_jobDone (id : Nat) (s : State) : Keeps 0 s (jobDone id s) := by
  unfold jobDone
  split
  · exact .refl s
  · simp only
    split
    · exact (keeps_cs (List.length_filter_le ..)).trans (keeps_noteEntryFreed _)
    · exact keeps_cs (Nat.le_of_eq (changeJob_length ..))

theorem keeps_separatorDone (s : State) : Keeps 0 s (separatorDone s) := by
  unfold separatorDone
  repeat' split
  all_goals exact {}

theorem keeps_copyDone (k : CardKind) (s : State) : Keeps 0 s (copyDone k s) := by
  cases k with
  | chip job position copy slot => exact keeps_jobDone job s
  | separatorOpen => exact keeps_separatorDone s
  | separatorClose => exact keeps_separatorDone s

theorem keeps_report (c : Card) (v : Verdict) (s : State) : Keeps 0 s (report c v s) := by
  refine Keeps.trans (t := { s with cs := { s.cs with last := c.kind.asLast } }) {} ?_
  cases v with
  | retry cause => exact {}
  | completed => exact keeps_copyDone ..
  | rejected cause => exact keeps_copyDone ..

theorem keeps_noticeRejected (c : Card) (v : Verdict) (s : State) : Keeps 0 s (noticeRejected c v s) := by
  cases v with
  | rejected cause => exact keeps_raiseNotice ..
  | completed => exact .refl s
  | retry cause => exact .refl s

theorem keeps_endAttempt (c : Card) (v : Verdict) (s : State) : Keeps 0 s (endAttempt c v s) :=
  have cleared (u : State) : Keeps 0 u (clearCard c v u) := {}
  (((keeps_endSlot c.kind v s).trans (cleared _)).trans (keeps_noticeRejected c v _)).trans (keeps_report ..)

theorem keeps_withdrawRetry (k : CardKind) (s : State) : Keeps 0 s (withdrawRetry k s) := by
  have slot : Keeps 0 s (withdrawSlot k s) := by
    unfold withdrawSlot
    split
    · split
      · exact keeps_sc (releaseSlot_counts ..)
      · exact .refl s
    · exact .refl s
    · exact .refl s
  exact (slot.trans {}).trans (keeps_copyDone k _)

theorem keeps_lateAccepted (echo : Nat) (s : State) : Keeps 0 s (lateAccepted echo s) := by
  refine (keeps_raiseNotice (lateNotice s 0xD1 echo) s).trans ?_
  unfold lateAccepted
  simp only
  split
  · split
    · exact keeps_withdrawRetry ..
    · exact .refl _
  · exact .refl _

theorem keeps_takeAccepted (echo : Nat) (s : State) : Keeps 0 s (takeAccepted echo s) := by
  unfold takeAccepted
  split
  · exact keeps_endAttempt ..
  · exact keeps_lateAccepted ..

theorem keeps_takeSpoiled (echo : Nat) (r : SpoilReason) (s : State) : Keeps 0 s (takeSpoiled echo r s) := by
  unfold takeSpoiled
  split
  · exact keeps_endAttempt ..
  · exact keeps_raiseNotice ..

theorem keeps_takeRecorderState (ready : Bool) (s : State) : Keeps 0 s (takeRecorderState ready s) := by
  unfold takeRecorderState
  split
  · exact .refl s
  · exact (keeps_cli ..).trans (keeps_pump _)

theorem keeps_takeRestarted (s : State) : Keeps 0 s (takeRestarted s) := by
  refine (keeps_cli s { s.cli with ready := false }).trans ?_
  unfold takeRestarted
  simp only
  split
  · exact (keeps_raiseNotice ..).trans (keeps_endAttempt ..)
  · exact keeps_raiseNotice ..

theorem keeps_takeMessage (m : RecorderMessage) (s : State) : Keeps 0 s (takeMessage m s) := by
  cases m with
  | state ready => exact keeps_takeRecorderState ready s
  | accepted echo => exact keeps_takeAccepted echo s
  | spoiled echo reason => exact keeps_takeSpoiled echo reason s
  | restarted => exact keeps_takeRestarted s

/-- R143: a marker leaves the head of the queue. -/
theorem keeps_removeMarker (s : State) : Keeps 0 s (removeMarker s) := by
  have dropped : Keeps 0 s { s with cs := { s.cs with queue := s.cs.queue.drop 1 } } :=
    keeps_cs (by simp)
  exact ((dropped.trans {}).trans (keeps_noteEntryFreed
    { s with
      cs := { s.cs with queue := s.cs.queue.drop 1 }
      cli := { s.cli with batch := nextNumber s.cli.batch, nextTray := 1 } })).trans (keeps_raiseNotice ..)

/-! ### What follows from a change -/

theorem keeps_markerOrRelease (f : FrameCtx) (s : State) : Keeps 0 s (markerOrRelease f s) := by
  refine Keeps.trans (t := { s with freeCount := s.freeCount + 1 }) {} ?_
  unfold markerOrRelease
  simp only
  split
  · exact keeps_removeMarker _
  · exact keeps_askRelease ..

theorem keeps_grantSlot (f : FrameCtx) (n : Nat) (s : State) : Keeps 0 s (grantSlot f n s) := {}

/-- R136: a reservation is granted only where an entry is free. -/
theorem keeps_grantReservation {f : FrameCtx} {s : State} (h : reservationGrant s = some f) :
    Keeps 0 s (grantReservation f s) := by
  have free : entryFree s = true := by
    unfold reservationGrant at h
    split at h
    · split at h
      · rename_i room; exact room.2
      · cases h
    · cases h
  exact (keeps_enqueue .reservation free).trans {}

/-- R138: the choice of a card leaves the entries of the queue as they are. -/
theorem chooseCard_queue {s t : State} {k : CardKind} {a : Nat} (h : chooseCard s = some (t, k, a)) :
    t.cs.queue = s.cs.queue := by
  have named {u : State} {b : Nat} {x : Option CardKind} (e : x.map (fun k => (u, k, b)) = some (t, k, a))
      (hu : u.cs.queue = s.cs.queue) : t.cs.queue = s.cs.queue := by
    obtain ⟨_, _, e⟩ := Option.map_eq_some_iff.1 e
    cases e
    exact hu
  unfold chooseCard at h
  split at h
  · exact named h rfl
  · split at h
    · exact named h rfl
    · split at h
      · split at h
        · cases h; rfl
        · exact named h rfl
      · split at h
        · exact named h rfl
        · cases h

theorem keeps_settleCards {s t : State} (h : settleCards s = some t) : Keeps 0 s t := by
  unfold settleCards at h
  split at h
  · cases h; exact keeps_markerOrRelease ..
  · cases h; exact keeps_removeMarker s
  · cases h; exact keeps_askRelease ..
  · simp only [boundaryCard, Option.map_eq_some_iff] at h
    obtain ⟨⟨u, k, a⟩, hc, rfl⟩ := h
    split at hc
    · have same := chooseCard_queue hc
      obtain ⟨cs, rfl⟩ := chooseCard_cs hc
      exact (keeps_cs (Nat.le_of_eq (congrArg List.length same))).trans (keeps_openCard ..)
    · cases hc

theorem keeps_settleStep {s t : State} (h : settleStep s = some t) : Keeps 0 s t := by
  rcases settleStep_cases h with ⟨_, free, rfl⟩ | ⟨f, hf, rfl⟩ | ⟨f, n, _, rfl⟩ | h
  · exact keeps_placeHead free
  · exact keeps_grantReservation hf
  · exact keeps_grantSlot ..
  · exact keeps_settleCards h

theorem keeps_settle (s : State) : Keeps 0 s (settle s) :=
  settle_keeps (P := Keeps 0 s) (fun _ _ h hu => h.trans (keeps_settleStep hu))
    (fun _ h => h.trans (keeps_sc (storeAfter_counts _))) (.refl s)

theorem keeps_beginWake (s : State) : Keeps 0 s (beginWake s) :=
  Keeps.trans (t := { s with sc := { s.sc with mode := .waking } }) {} (keeps_settle _)

/-- R169, R173: the end of a command. -/
theorem keeps_finish (s : State) : Keeps 0 s (finish s) := by
  have met : Keeps 0 s (meetHeader s) := by
    unfold meetHeader
    split
    · exact keeps_beginWake s
    · exact .refl s
  have told (u : State) : Keeps 0 u (channel u) := by
    unfold channel arbitrate sendSymbol
    repeat' split
    all_goals exact {}
  exact met.trans (told _)

/-! ### The intake FIFO (R167, R168) -/

/-- Nothing that is taken from the head makes the FIFO longer. -/
theorem takeHead_length (f : Fli) : (takeHead f).fifo.length ≤ f.fifo.length := by
  unfold takeHead
  split
  · exact Nat.le_refl _
  · split
    · rename_i p ps held
      rw [held]
      exact Nat.le_succ _
    · exact Nat.le_refl _

@[simp] theorem takeHead_notices (f : Fli) : (takeHead f).notices = f.notices := by
  unfold takeHead
  repeat' split
  all_goals rfl

@[simp] theorem takeHead_replies (f : Fli) : (takeHead f).replies = f.replies := by
  unfold takeHead
  repeat' split
  all_goals rfl

@[simp] theorem markTail_length (k : FilmKind) (ps : List Place) : (markTail k ps).length = ps.length := by
  fun_induction markTail k ps with
  | case1 => rfl
  | case2 => rfl
  | case3 p q ps ih => exact congrArg (· + 1) ih

theorem keeps_popHead (s : State) : Keeps 0 s (popHead s) where
  link := fun h => ⟨Nat.le_trans (takeHead_length _) h.fifo, (takeHead_notices s.fli).symm ▸ h.notices, h.staging⟩
  replies := by simp only [repliesOwed, popHead_fli, popHead_mu, takeHead_replies]; exact Nat.le_refl _

theorem keeps_taken (s : State) : Keeps 0 s (taken s) := (keeps_fresh s).trans (keeps_popHead _)

/-- R167: a place joins a FIFO that has room for it. -/
theorem keeps_pushPlace (c : Content) {s : State} (room : s.fli.fifo.length < Config.fifoPlaces) :
    Keeps 0 s { s with fli := pushPlace c s.fli } where
  link := fun h => ⟨by
    simp only [pushPlace, List.length_append, List.length_singleton]
    exact room, h.notices, h.staging⟩

theorem keeps_markTail (k : FilmKind) (s : State) :
    Keeps 0 s { s with fli := { s.fli with fifo := markTail k s.fli.fifo } } where
  link := fun h => ⟨(markTail_length k s.fli.fifo).symm ▸ h.fifo, h.notices, h.staging⟩

theorem keeps_markLoss (k : FilmKind) (s : State) : Keeps 0 s (markLoss k s) := by
  unfold markLoss
  split
  · exact keeps_pushPlace _ ‹_›
  · exact keeps_markTail k s

theorem keeps_takeRecord (r : LinkRecord) (s : State) : Keeps 0 s (takeRecord r s) := by
  unfold takeRecord
  split
  · unfold takeCheckError
    split
    · exact (keeps_raiseNotice ..).trans (keeps_markLoss ..)
    · exact keeps_raiseNotice ..
  · split
    · exact keeps_pushPlace _ ‹_›
    · unfold overrun
      split
      · exact (keeps_markTail ..).trans (keeps_setOverrun _)
      · exact keeps_setOverrun _
  · split
    · exact .refl s
    · exact keeps_setOverrun s

/-! ### The intake (R55 to R80) -/

theorem keeps_evaluateHeader (h : Header) (m : Option Matched) (s : State) : Keeps 0 s (evaluateHeader h m s) := by
  refine Keeps.trans (t := { s with dm := s.dm.evaluate h }) {} ?_
  unfold evaluateHeader
  simp only
  split
  · split
    · exact keeps_raiseNotice ..
    · exact .refl _
  · exact .refl _

theorem keeps_floorTest (h : Header) (m : Option Matched) (rf : Nat) (s : State) : Keeps 0 s (floorTest h m rf s) := by
  unfold floorTest
  split
  · exact (keeps_raiseNotice ..).trans (keeps_setIntake ..)
  · have clamped (g : Geometry) : Keeps 0 s (noticeClamped g h m s) := by
      unfold noticeClamped
      split
      · exact keeps_raiseNotice ..
      · exact .refl s
    exact (clamped _).trans {}

theorem keeps_takeHeader (h : Header) (s : State) : Keeps 0 s (takeHeader h s) := by
  unfold takeHeader
  split
  · exact (keeps_raiseNotice ..).trans (keeps_setIntake ..)
  · split
    · exact keeps_setIntake ..
    · exact ((keeps_evaluateHeader ..).trans (keeps_raiseNotice ..)).trans (keeps_setIntake ..)
    · exact (keeps_evaluateHeader ..).trans (keeps_floorTest ..)
    · exact (keeps_evaluateHeader ..).trans (keeps_floorTest ..)

theorem keeps_placeLine (f : FrameCtx) (g : Geometry) (slot : Nat) (inks : List Byte) (s : State) :
    Keeps 0 s (placeLine f g slot inks s) := by
  unfold placeLine
  split
  · exact (keeps_sc (askWrite_counts ..)).trans {}
  · exact keeps_rs ..

theorem keeps_enterGapped (slot : Nat) (s : State) : Keeps 0 s { s with sc := enterGapped slot s.sc } :=
  keeps_sc (enterGapped_counts ..)

theorem keeps_fillLine (f : FrameCtx) (g : Geometry) (slot : Nat) (s : State) : Keeps 0 s (fillLine f g slot s) :=
  (keeps_enterGapped slot s).trans (keeps_placeLine ..)

theorem keeps_resampleLine (f : FrameCtx) (g : Geometry) (slot : Nat) (samples : List Byte) (s : State) :
    Keeps 0 s (resampleLine f g slot samples s) := by
  unfold resampleLine
  simp only
  repeat' split
  · exact keeps_fillLine ..
  · exact (keeps_enterGapped slot s).trans (keeps_placeLine ..)
  · exact keeps_placeLine ..

theorem keeps_sentCheck (f : FrameCtx) (slot : Nat) (sent : Option Nat) (s : State) :
    Keeps 0 s (sentCheck f slot sent s) := by
  unfold sentCheck
  split
  · split
    · exact (keeps_enterGapped slot s).trans {}
    · exact .refl s
  · exact .refl s

theorem keeps_workStep {f : FrameCtx} {g : Geometry} {slot : Nat} {s t : State} (h : workStep f g slot s = some t) :
    Keeps 0 s t := by
  unfold workStep at h
  split at h
  · cases h
  · split at h <;> cases h
    · exact keeps_fillLine ..
    · exact (keeps_resampleLine ..).trans (keeps_setWork ..)
  · split at h <;> cases h
    · exact keeps_fillLine ..
    · exact (keeps_sentCheck ..).trans (keeps_setWork ..)
  · cases h
  · cases h; exact (keeps_sc (askWrite_counts ..)).trans (keeps_setWork ..)

theorem keeps_runWork (n : Nat) (s : State) : Keeps 0 s (runWork n s) := by
  induction n generalizing s with
  | zero => exact .refl s
  | succ n ih =>
    unfold runWork
    split
    · split
      · rename_i h; exact (keeps_workStep h).trans (ih _)
      · exact .refl s
    · exact .refl s

theorem keeps_fileOpen (s : State) : Keeps 0 s (fileOpen s) := by
  unfold fileOpen
  split
  · exact (keeps_fileFrame ..).trans (keeps_rs ..)
  all_goals exact .refl s

theorem keeps_takeCause (s : State) : Keeps 0 s (takeCause s) := by
  unfold takeCause
  split
  · exact ((keeps_popHead s).trans (keeps_takeHeader ..)).trans (keeps_settle _)
  · exact ((keeps_popHead s).trans (keeps_targetOp ..)).trans (keeps_settle _)
  · exact (keeps_popHead s).trans (keeps_setIntake ..)
  · exact .refl s

theorem keeps_closeFrame (implicit : Bool) (s : State) : Keeps 0 s (closeFrame implicit s) := by
  refine ((keeps_fileOpen s).trans (keeps_settle _)).trans ?_
  unfold closeFrame
  simp only
  split
  · exact keeps_takeCause _
  · exact .refl _

theorem keeps_advance (s : State) : Keeps 0 s (advance s) := by
  refine (keeps_runWork workFuel s).trans ?_
  unfold advance
  simp only
  split
  · exact keeps_closeFrame ..
  · exact keeps_storeOnly _

theorem keeps_implicitEnd (f : FrameCtx) (s : State) : Keeps 0 s (implicitEnd f s) :=
  ((keeps_raiseNotice ..).trans (keeps_setWork ..)).trans (keeps_advance _)

theorem keeps_takeFrameHeader (h : Header) (s : State) : Keeps 0 s (takeFrameHeader h s) := by
  unfold takeFrameHeader
  split
  · exact keeps_implicitEnd ..
  all_goals exact ((keeps_popHead s).trans (keeps_takeHeader ..)).trans (keeps_settle _)

theorem keeps_takeLineRecord (n : Nat) (samples : List Byte) (s : State) : Keeps 0 s (takeLineRecord n samples s) := by
  unfold takeLineRecord
  split
  · unfold takeLine
    simp only
    split
    · exact ((keeps_setIntake ..).trans (keeps_setWork ..)).trans (keeps_advance _)
    · exact keeps_setIntake ..
  all_goals exact .refl s

theorem keeps_takeFrameEndRecord (sent : Nat) (s : State) : Keeps 0 s (takeFrameEndRecord sent s) := by
  unfold takeFrameEndRecord
  split
  · exact (keeps_setWork ..).trans (keeps_advance _)
  · exact keeps_setIntake ..
  all_goals exact .refl s

theorem keeps_takeTarget (t : Target) (s : State) : Keeps 0 s (takeTarget t s) := by
  unfold takeTarget
  split
  · exact keeps_implicitEnd ..
  all_goals exact ((keeps_popHead s).trans (keeps_targetOp ..)).trans (keeps_settle _)

theorem keeps_takeLoss (k : FilmKind) (s : State) : Keeps 0 s (takeLoss k s) := by
  unfold takeLoss
  split
  · split
    · exact keeps_implicitEnd ..
    all_goals exact (keeps_popHead s).trans (keeps_setIntake ..)
  all_goals exact keeps_popHead s

theorem keeps_abortWith (f : FrameCtx) (lost : Notice) (s : State) : Keeps 0 s (abortWith f lost s) :=
  (((keeps_releaseReservation s).trans (keeps_raiseNotice lost _)).trans (keeps_sc (dropSlot_counts f.slot _))).trans
    (keeps_emptyIntake _)

theorem keeps_intakeLinkLoss (s : State) : Keeps 0 s (intakeLinkLoss s) := by
  unfold intakeLinkLoss
  split
  case h_4 => exact keeps_setIntake ..
  case h_5 | h_6 => exact .refl s
  all_goals exact keeps_abortWith ..

end Sys2Proof.Machine
end

section
/-! SUPPORT. The tables: what a staged write is, what one write and a list of writes leave at every position (R3, R8,
R23), and that they keep the tables' forms (R1, R21, R23, R32). -/

namespace Sys2Proof.Machine

-- Checked one after another, as the tests are, to hold the memory and the threads down.
set_option Elab.async false

/-! ### Table kinds and positions (R3, Table 1-9) -/

theorem tableKind?_index : tableKind? 1 = some .index := rfl
theorem tableKind?_cls : tableKind? 2 = some .cls := rfl
theorem tableKind?_tone : tableKind? 3 = some .tone := rfl

theorem tableKind?_none {kind : Byte} (h1 : kind ≠ 1) (h2 : kind ≠ 2) (h3 : kind ≠ 3) :
    tableKind? kind = none := by
  unfold tableKind?
  split
  · exact absurd (BitVec.eq_of_toNat_eq ‹_›) h1
  · exact absurd (BitVec.eq_of_toNat_eq ‹_›) h2
  · exact absurd (BitVec.eq_of_toNat_eq ‹_›) h3
  · rfl

@[simp] theorem positionOk_index (p : Nat) : positionOk .index p = decide (p < 4096) := rfl
@[simp] theorem positionOk_cls (p : Nat) : positionOk .cls p = decide (p < 16) := rfl
@[simp] theorem positionOk_tone (p : Nat) : positionOk .tone p = decide (p < 2048) := by
  simp only [positionOk, decide_eq_decide]; omega

/-! ### What a TABLE WRITE stages (R3, R22) -/

/-- R22: a class content that passes its checks has a level of at most 3. -/
theorem parseClassContent_level {content : List Byte} {c : ClassEntry} (h : parseClassContent content = some c) :
    c.level ≤ 3 := by
  unfold parseClassContent at h
  split at h
  · simp only [Option.ite_none_right_eq_some, Bool.and_eq_true, decide_eq_true_eq] at h
    obtain ⟨⟨⟨⟨_, level⟩, _⟩, _⟩, e⟩ := h
    cases e
    exact level
  · cases h

/-- R3: a write that passes its checks has a position in the range of its table, and a class a level of at most 3. -/
theorem parseWrite_ok {kind : Byte} {position : Nat} {content : List Byte} {w : StagedWrite}
    (h : parseWrite kind position content = .ok w) :
    w.levelOk ∧ ∀ p e, w = .index p e → p < Config.indexPositions := by
  unfold parseWrite at h
  split at h
  · cases h
  · split at h
    · rename_i inside
      split at h
      · split at h <;> cases h
        refine ⟨trivial, fun p e same => ?_⟩
        cases same
        simpa [positionOk] using inside
      · split at h <;> cases h
        rename_i parsed
        exact ⟨parseClassContent_level parsed, nofun⟩
      · cases h
        exact ⟨trivial, nofun⟩
    · cases h

/-! ### The Index Table (R1, R8) -/

/-- R1: the entry of a position in a list of valid positions. -/
def entryAt (l : List (Nat × IndexEntry)) (p : Nat) : Option IndexEntry := (l.find? (fun x => x.1 == p)).map (·.2)

theorem indexAt_eq (mu : Mu) (p : Nat) : indexAt mu p = entryAt mu.index p := rfl

@[simp] theorem entryAt_nil (p : Nat) : entryAt [] p = none := rfl
theorem entryAt_cons (x : Nat × IndexEntry) (l : List (Nat × IndexEntry)) (p : Nat) :
    entryAt (x :: l) p = if x.1 = p then some x.2 else entryAt l p := by
  by_cases h : x.1 = p <;> simp [entryAt, h]

/-- Below every valid position there is no valid entry. -/
theorem entryAt_below {l : List (Nat × IndexEntry)} {p : Nat} (h : ∀ q ∈ l.map Prod.fst, p < q) :
    entryAt l p = none := by
  induction l with
  | nil => rfl
  | cons x l ih =>
    simp only [List.map_cons, List.forall_mem_cons] at h
    rw [entryAt_cons, if_neg (by omega), ih h.2]

/-- The valid position that an entry makes, none when it is invalid. -/
def written (p : Nat) (e : Option IndexEntry) : List (Nat × IndexEntry) := (e.map (fun x => (p, x))).toList

theorem setIndex_nil (p : Nat) (e : Option IndexEntry) : setIndex p e [] = written p e := by cases e <;> rfl

theorem setIndex_cons (p : Nat) (e : Option IndexEntry) (x : Nat × IndexEntry) (l : List (Nat × IndexEntry)) :
    setIndex p e (x :: l) = if p < x.1 then written p e ++ x :: l else if p = x.1 then written p e ++ l
      else x :: setIndex p e l := by
  cases e <;> rfl

theorem entryAt_written {l : List (Nat × IndexEntry)} {p : Nat} (h : entryAt l p = none) (e : Option IndexEntry)
    (q : Nat) : entryAt (written p e ++ l) q = if p = q then e else entryAt l q := by
  cases e with
  | none =>
    by_cases same : p = q
    · subst same; simpa [written] using h
    · simp [written, same]
  | some x => exact entryAt_cons (p, x) l q

theorem mem_written {p q : Nat} {e : Option IndexEntry} (h : q ∈ (written p e).map Prod.fst) : q = p := by
  cases e <;> simp_all [written]

/-- R8: a write to one position of the Index Table leaves every other position as it was. -/
theorem entryAt_setIndex {l : List (Nat × IndexEntry)} (h : (l.map Prod.fst).Pairwise (· < ·)) (p : Nat)
    (e : Option IndexEntry) (q : Nat) : entryAt (setIndex p e l) q = if p = q then e else entryAt l q := by
  induction l with
  | nil => simpa [setIndex_nil] using entryAt_written (entryAt_nil p) e q
  | cons x l ih =>
    obtain ⟨above, rising⟩ := List.pairwise_cons.1 h
    rw [setIndex_cons]
    split
    · rename_i below
      refine entryAt_written (entryAt_below fun r hr => ?_) e q
      rcases List.mem_cons.1 hr with rfl | hr
      · exact below
      · exact Nat.lt_trans below (above r hr)
    · split
      · rename_i same
        subst same
        rw [entryAt_written (entryAt_below above), entryAt_cons]
        split <;> rfl
      · rw [entryAt_cons, ih rising, entryAt_cons]
        split
        · rw [if_neg (by omega)]
        · rfl

/-- The valid positions after a write are the old ones and the one written, at most. -/
theorem mem_setIndex {p q : Nat} {e : Option IndexEntry} {l : List (Nat × IndexEntry)}
    (h : q ∈ (setIndex p e l).map Prod.fst) : q = p ∨ q ∈ l.map Prod.fst := by
  induction l with
  | nil => exact .inl (mem_written (by rwa [setIndex_nil] at h))
  | cons x l ih =>
    rw [setIndex_cons] at h
    split at h
    · rw [List.map_append, List.mem_append] at h
      exact h.imp_left mem_written
    · split at h
      · rw [List.map_append, List.mem_append] at h
        exact h.imp mem_written (List.mem_cons_of_mem _)
      · rcases List.mem_cons.1 h with rfl | h
        · exact .inr List.mem_cons_self
        · exact (ih h).imp_right (List.mem_cons_of_mem _)

/-- A position written ahead of higher ones stands in rising order. -/
theorem written_rising {p : Nat} (e : Option IndexEntry) {l : List (Nat × IndexEntry)}
    (h : (l.map Prod.fst).Pairwise (· < ·)) (below : ∀ q ∈ l.map Prod.fst, p < q) :
    ((written p e ++ l).map Prod.fst).Pairwise (· < ·) := by
  cases e with
  | none => exact h
  | some x => exact List.pairwise_cons.2 ⟨below, h⟩

/-- R1: a write keeps the valid positions in rising order. -/
theorem setIndex_rising (p : Nat) (e : Option IndexEntry) {l : List (Nat × IndexEntry)}
    (h : (l.map Prod.fst).Pairwise (· < ·)) : ((setIndex p e l).map Prod.fst).Pairwise (· < ·) := by
  induction l with
  | nil => rw [setIndex_nil]; cases e <;> simp [written]
  | cons x l ih =>
    obtain ⟨above, rising⟩ := List.pairwise_cons.1 h
    rw [setIndex_cons]
    split
    · rename_i below
      refine written_rising e h fun q hq => ?_
      rcases List.mem_cons.1 hq with rfl | hq
      · exact below
      · exact Nat.lt_trans below (above q hq)
    · split
      · rename_i same
        exact written_rising e rising (same ▸ above)
      · refine List.pairwise_cons.2 ⟨fun q hq => ?_, ih rising⟩
        rcases mem_setIndex hq with rfl | hq
        · omega
        · exact above q hq

/-! ### The Class Table (R8, R23) -/

theorem powerOn_storedOk : ClassEntry.powerOn.storedOk := ⟨by decide, .inl rfl⟩

/-- R23: the class at every position, in the table or not, has a stored level and depth. -/
theorem classAt_storedOk {mu : Mu} (h : ∀ c, c ∈ mu.classes → c.storedOk) (p : Nat) :
    (classAt mu p).storedOk := by
  unfold classAt
  rcases getD_mem_or_default mu.classes p .powerOn with mem | default
  · exact h _ mem
  · rw [default]
    exact powerOn_storedOk

theorem storedDepth_ok (d : Nat) :
    storedDepth d = 1 ∨ storedDepth d = 2 ∨ storedDepth d = 4 ∨ storedDepth d = 8 := by
  unfold storedDepth
  split
  · assumption
  · exact .inl rfl

/-- R23: a staged class is stored with a level of 1..3 and a depth of 1, 2, 4 or 8. -/
theorem storedClass_storedOk {before c : ClassEntry} (h : before.storedOk) (level : c.level ≤ 3) :
    (storedClass before c).storedOk := by
  refine ⟨?_, storedDepth_ok c.depth⟩
  show 1 ≤ storedLevel before.level c.level ∧ storedLevel before.level c.level ≤ 3
  unfold storedLevel
  split
  · exact h.1
  · omega

/-! ### One staged write (R8) -/

theorem indexAt_applyWrite {mu : Mu} (h : (mu.index.map Prod.fst).Pairwise (· < ·)) (w : StagedWrite) (p : Nat) :
    indexAt (applyWrite mu w) p = indexAfter p (indexAt mu p) [w] := by
  cases w with
  | index q e => exact entryAt_setIndex h q e p
  | cls q c => rfl
  | tone t i ink => rfl

theorem classAt_applyWrite {mu : Mu} {p : Nat} (h : p < mu.classes.length) (w : StagedWrite) :
    classAt (applyWrite mu w) p = classAfter p (classAt mu p) [w] := by
  cases w with
  | index q e => rfl
  | tone t i ink => rfl
  | cls q c =>
    by_cases same : q = p
    · subst same
      show (mu.classes.set q (storedClass (classAt mu q) c)).getD q .powerOn
        = if q = q then storedClass (classAt mu q) c else classAt mu q
      rw [if_pos rfl, getD_inside (by rwa [List.length_set]), List.getElem_set_self]
    · show (mu.classes.set q (storedClass (classAt mu q) c)).getD p .powerOn
        = if q = p then storedClass (classAt mu p) c else classAt mu p
      rw [if_neg same, getD_set_other _ same]
      rfl

/-- R32: the entry of a tone table. -/
def inkAt (tones : List (List Byte)) (n i : Nat) : Byte := (tones.getD n []).getD i 0

theorem inkAt_applyWrite {mu : Mu} {n i : Nat} (hn : n < mu.tones.length) (hi : i < (mu.tones.getD n []).length)
    (w : StagedWrite) : inkAt (applyWrite mu w).tones n i = toneAfter n i (inkAt mu.tones n i) [w] := by
  cases w with
  | index q e => rfl
  | cls q c => rfl
  | tone t j ink =>
    by_cases table : t = n
    · subst table
      have row : ((mu.tones.set t ((mu.tones.getD t []).set j ink)).getD t []) = (mu.tones.getD t []).set j ink := by
        rw [getD_inside (by rwa [List.length_set]), List.getElem_set_self]
      show ((mu.tones.set t ((mu.tones.getD t []).set j ink)).getD t []).getD i 0
        = if t = t ∧ j = i then ink else inkAt mu.tones t i
      rw [row]
      by_cases entry : j = i
      · subst entry
        rw [if_pos ⟨rfl, rfl⟩, getD_inside (by rwa [List.length_set]), List.getElem_set_self]
      · rw [if_neg fun both => entry both.2, getD_set_other _ entry]
        rfl
    · show ((mu.tones.set t ((mu.tones.getD t []).set j ink)).getD n []).getD i 0
        = if t = n ∧ j = i then ink else inkAt mu.tones n i
      rw [if_neg fun both => table both.1, getD_set_other _ table]
      rfl

theorem applyWrite_rising {mu : Mu} (h : (mu.index.map Prod.fst).Pairwise (· < ·)) (w : StagedWrite) :
    ((applyWrite mu w).index.map Prod.fst).Pairwise (· < ·) := by
  cases w with
  | index q e => exact setIndex_rising q e h
  | cls q c => exact h
  | tone t i ink => exact h

theorem applyWrite_positions {mu : Mu} (h : ∀ p, p ∈ mu.index.map Prod.fst → p < Config.indexPositions)
    {w : StagedWrite} (hw : ∀ p e, w = .index p e → p < Config.indexPositions) :
    ∀ p, p ∈ (applyWrite mu w).index.map Prod.fst → p < Config.indexPositions := by
  cases w with
  | index q e =>
    intro p hp
    rcases mem_setIndex hp with rfl | hp
    · exact hw _ _ rfl
    · exact h p hp
  | cls q c => exact h
  | tone t i ink => exact h

theorem applyWrite_classes {mu : Mu} (h : ∀ c, c ∈ mu.classes → c.storedOk) {w : StagedWrite} (hw : w.levelOk) :
    ∀ c, c ∈ (applyWrite mu w).classes → c.storedOk := by
  cases w with
  | index q e => exact h
  | tone t i ink => exact h
  | cls q c =>
    intro x hx
    rcases List.mem_or_eq_of_mem_set hx with hx | rfl
    · exact h x hx
    · exact storedClass_storedOk (classAt_storedOk h q) hw

@[simp] theorem applyWrite_classes_length (mu : Mu) (w : StagedWrite) :
    (applyWrite mu w).classes.length = mu.classes.length := by
  cases w <;> simp [applyWrite]

@[simp] theorem applyWrite_tones_length (mu : Mu) (w : StagedWrite) :
    (applyWrite mu w).tones.length = mu.tones.length := by
  cases w <;> simp [applyWrite]

/-- R32: a write leaves every tone table as long as it was. -/
@[simp] theorem applyWrite_tone_length (mu : Mu) (w : StagedWrite) (n : Nat) :
    ((applyWrite mu w).tones.getD n []).length = (mu.tones.getD n []).length := by
  cases w with
  | index q e => rfl
  | cls q c => rfl
  | tone t i ink =>
    by_cases hn : n < mu.tones.length
    · by_cases table : t = n
      · subst table
        show ((mu.tones.set t ((mu.tones.getD t []).set i ink)).getD t []).length = _
        rw [getD_inside (by rwa [List.length_set]), List.getElem_set_self, List.length_set]
      · show ((mu.tones.set t ((mu.tones.getD t []).set i ink)).getD n []).length = _
        rw [getD_set_other _ table]
    · rw [getD_outside (by rw [applyWrite_tones_length]; exact Nat.le_of_not_lt hn), getD_outside (Nat.le_of_not_lt hn)]

/-- What one write touches of the MU. -/
theorem applyWrite_frame (mu : Mu) (w : StagedWrite) :
    applyWrite mu w = { mu with
      index := (applyWrite mu w).index, classes := (applyWrite mu w).classes, tones := (applyWrite mu w).tones } := by
  cases w <;> rfl

/-! ### The staged writes in order (R8) -/

theorem applyAll_frame (ws : List StagedWrite) (mu : Mu) :
    applyAll ws mu = { mu with
      index := (applyAll ws mu).index, classes := (applyAll ws mu).classes, tones := (applyAll ws mu).tones } := by
  induction ws generalizing mu with
  | nil => rfl
  | cons w ws ih =>
    have step : applyAll (w :: ws) mu = applyAll ws (applyWrite mu w) := rfl
    rw [step, ih, applyWrite_frame]

theorem indexAt_applyAll (ws : List StagedWrite) {mu : Mu} (h : (mu.index.map Prod.fst).Pairwise (· < ·)) (p : Nat) :
    indexAt (applyAll ws mu) p = indexAfter p (indexAt mu p) ws := by
  induction ws generalizing mu with
  | nil => rfl
  | cons w ws ih => exact (ih (applyWrite_rising h w)).trans (by rw [indexAt_applyWrite h]; rfl)

theorem classAt_applyAll (ws : List StagedWrite) {mu : Mu} {p : Nat} (h : p < mu.classes.length) :
    classAt (applyAll ws mu) p = classAfter p (classAt mu p) ws := by
  induction ws generalizing mu with
  | nil => rfl
  | cons w ws ih => exact (ih ((applyWrite_classes_length mu w).symm ▸ h)).trans (by rw [classAt_applyWrite h]; rfl)

theorem inkAt_applyAll (ws : List StagedWrite) {mu : Mu} {n i : Nat} (hn : n < mu.tones.length)
    (hi : i < (mu.tones.getD n []).length) :
    inkAt (applyAll ws mu).tones n i = toneAfter n i (inkAt mu.tones n i) ws := by
  induction ws generalizing mu with
  | nil => rfl
  | cons w ws ih =>
    exact (ih (by rwa [applyWrite_tones_length]) (by rwa [applyWrite_tone_length])).trans
      (by rw [inkAt_applyWrite hn hi]; rfl)

theorem applyAll_rising (ws : List StagedWrite) {mu : Mu} (h : (mu.index.map Prod.fst).Pairwise (· < ·)) :
    ((applyAll ws mu).index.map Prod.fst).Pairwise (· < ·) :=
  List.foldlRecOn (motive := fun m => (m.index.map Prod.fst).Pairwise (· < ·)) ws applyWrite h
    fun _ hm w _ => applyWrite_rising hm w

theorem applyAll_positions {ws : List StagedWrite} {mu : Mu}
    (h : ∀ p, p ∈ mu.index.map Prod.fst → p < Config.indexPositions)
    (hw : ∀ p e, StagedWrite.index p e ∈ ws → p < Config.indexPositions) :
    ∀ p, p ∈ (applyAll ws mu).index.map Prod.fst → p < Config.indexPositions :=
  List.foldlRecOn (motive := fun m => ∀ p, p ∈ m.index.map Prod.fst → p < Config.indexPositions) ws applyWrite h
    fun _ hm _ mem => applyWrite_positions hm fun p e same => hw p e (same ▸ mem)

theorem applyAll_classes {ws : List StagedWrite} {mu : Mu} (h : ∀ c, c ∈ mu.classes → c.storedOk)
    (hw : ∀ w, w ∈ ws → w.levelOk) : ∀ c, c ∈ (applyAll ws mu).classes → c.storedOk :=
  List.foldlRecOn (motive := fun m => ∀ c, c ∈ m.classes → c.storedOk) ws applyWrite h
    fun _ hm w mem => applyWrite_classes hm (hw w mem)

@[simp] theorem applyAll_classes_length (ws : List StagedWrite) (mu : Mu) :
    (applyAll ws mu).classes.length = mu.classes.length :=
  List.foldlRecOn (motive := fun m => m.classes.length = mu.classes.length) ws applyWrite rfl
    fun _ hm w _ => (applyWrite_classes_length _ w).trans hm

@[simp] theorem applyAll_tones_length (ws : List StagedWrite) (mu : Mu) :
    (applyAll ws mu).tones.length = mu.tones.length :=
  List.foldlRecOn (motive := fun m => m.tones.length = mu.tones.length) ws applyWrite rfl
    fun _ hm w _ => (applyWrite_tones_length _ w).trans hm

@[simp] theorem applyAll_tone_length (ws : List StagedWrite) (mu : Mu) (n : Nat) :
    ((applyAll ws mu).tones.getD n []).length = (mu.tones.getD n []).length :=
  List.foldlRecOn (motive := fun m => (m.tones.getD n []).length = (mu.tones.getD n []).length) ws applyWrite rfl
    fun _ hm w _ => (applyWrite_tone_length _ w n).trans hm

/-- R32: eight tone tables of 256 entries stay so. -/
theorem applyAll_tones {ws : List StagedWrite} {mu : Mu} (h : ∀ t, t ∈ mu.tones → t.length = 256) :
    ∀ t, t ∈ (applyAll ws mu).tones → t.length = 256 := by
  intro t ht
  obtain ⟨n, hn, rfl⟩ := List.getElem_of_mem ht
  have old : n < mu.tones.length := by rwa [applyAll_tones_length] at hn
  have same := applyAll_tone_length ws mu n
  rw [getD_inside hn, getD_inside old] at same
  exact same.trans (h _ (List.getElem_mem old))

end Sys2Proof.Machine
end

section
/-! SUPPORT. One equation for each command that acts on a record, a condition or a message: its effect where that stands
there, and nothing where it does not (log entry 1). -/

namespace Sys2Proof.Machine

-- Checked one after another, as the tests are, to hold the memory and the threads down.
set_option Elab.async false

/-- A command that acts on what stands there for it, and has no effect where nothing does (log entry 1). -/
def actOn {α : Type} (head : Option α) (op : α → State) (s : State) : Host.Outcome State Fault Refusal :=
  match head with
  | some a => .next (finish (op a))
  | none => .next (fresh s)

section ActOn
variable (s : State)

theorem exec_line : exec .line s = actOn (headLine s) (fun x => takeLineRecord x.1 x.2 (taken s)) s := by
  unfold exec execLine actOn; cases headLine s <;> rfl
theorem exec_frameEnd : exec .frameEnd s = actOn (headFrameEnd s) (fun x => takeFrameEndRecord x (taken s)) s := by
  unfold exec execFrameEnd actOn; cases headFrameEnd s <;> rfl
theorem exec_start : exec .start s = actOn (headTarget .start s) (fun x => takeTarget x (fresh s)) s := by
  unfold exec execStart actOn; cases headTarget .start s <;> rfl
theorem exec_endTarget : exec .endTarget s = actOn (headTarget .endSet s) (fun x => takeTarget x (fresh s)) s := by
  unfold exec execEndTarget actOn; cases headTarget .endSet s <;> rfl
theorem exec_batchEnd : exec .batchEnd s = actOn (headTarget .batchEnd s) (fun x => takeTarget x (fresh s)) s := by
  unfold exec execBatchEnd actOn; cases headTarget .batchEnd s <;> rfl
theorem exec_lossIndication : exec .lossIndication s = actOn (headLoss s) (fun x => takeLoss x (fresh s)) s := by
  unfold exec execLossIndication actOn; cases headLoss s <;> rfl
theorem exec_tableWrite :
    exec .tableWrite s = actOn (headTableWrite s) (fun x => tableWriteOp x.1 x.2.1 x.2.2.1 x.2.2.2 (taken s)) s := by
  unfold exec execTableWrite actOn; cases headTableWrite s <;> rfl
theorem exec_tableFence : exec .tableFence s = actOn (headTableFence s) (fun x => tableFenceOp x (taken s)) s := by
  unfold exec execTableFence actOn; cases headTableFence s <;> rfl
theorem exec_tableRead :
    exec .tableRead s = actOn (headTableRead s) (fun x => tableReadOp x.1 x.2.1 x.2.2 (taken s)) s := by
  unfold exec execTableRead actOn; cases headTableRead s <;> rfl
theorem exec_tableDescribe :
    exec .tableDescribe s = actOn (headTableDescribe s) (fun x => tableDescribeOp x.1 x.2 (taken s)) s := by
  unfold exec execTableDescribe actOn; cases headTableDescribe s <;> rfl
theorem exec_setRelease :
    exec .setRelease s = actOn (headSetRelease s) (fun x => setReleaseOp x.1 x.2 (taken s)) s := by
  unfold exec execSetRelease actOn; cases headSetRelease s <;> rfl
theorem exec_setDiscard :
    exec .setDiscard s = actOn (headSetDiscard s) (fun x => setDiscardOp x.1 x.2 (taken s)) s := by
  unfold exec execSetDiscard actOn; cases headSetDiscard s <;> rfl
theorem exec_cardCancel : exec .cardCancel s = actOn (headCardCancel s) (fun x => cardCancelOp x (taken s)) s := by
  unfold exec execCardCancel actOn; cases headCardCancel s <;> rfl
theorem exec_storeSetup :
    exec .storeSetup s = actOn (headStoreSetup s) (fun x => storeSetupOp x.1 x.2.1 x.2.2 (taken s)) s := by
  unfold exec execStoreSetup actOn; cases headStoreSetup s <;> rfl
theorem exec_storeRetain : exec .storeRetain s = actOn (headStoreRetain s) (fun x => storeRetainOp x (taken s)) s := by
  unfold exec execStoreRetain actOn; cases headStoreRetain s <;> rfl
theorem exec_storeWake : exec .storeWake s = actOn (headStoreWake s) (fun x => storeWakeOp x (taken s)) s := by
  unfold exec execStoreWake actOn; cases headStoreWake s <;> rfl
theorem exec_storePurge : exec .storePurge s = actOn (headStorePurge s) (fun x => storePurgeOp x (taken s)) s := by
  unfold exec execStorePurge actOn; cases headStorePurge s <;> rfl
theorem exec_storePurgeDone : exec .storePurgeDone s = actOn (purgeEnding s) (fun x => purgeDoneOp x (fresh s)) s := by
  unfold exec execStorePurgeDone actOn; cases purgeEnding s <;> rfl
theorem exec_monitorSetup :
    exec .monitorSetup s = actOn (headMonitorSetup s) (fun x => monitorSetupOp x.1 x.2 (taken s)) s := by
  unfold exec execMonitorSetup actOn; cases headMonitorSetup s <;> rfl
theorem exec_recorderSetup :
    exec .recorderSetup s = actOn (headRecorderSetup s) (fun x => recorderSetupOp x.1 x.2.1 x.2.2 (taken s)) s := by
  unfold exec execRecorderSetup actOn; cases headRecorderSetup s <;> rfl
theorem exec_statusRead : exec .statusRead s = actOn (headStatusRead s) (fun x => statusReadOp x (taken s)) s := by
  unfold exec execStatusRead actOn; cases headStatusRead s <;> rfl
theorem exec_statusClear :
    exec .statusClear s = actOn (headStatusClear s) (fun x => statusClearOp x.1 x.2 (taken s)) s := by
  unfold exec execStatusClear actOn; cases headStatusClear s <;> rfl
theorem exec_linkReset : exec .linkReset s = actOn (headLinkReset s) (fun x => linkResetOp x (taken s)) s := by
  unfold exec execLinkReset actOn; cases headLinkReset s <;> rfl
theorem exec_linkResetComplete :
    exec .linkResetComplete s = actOn (resetEnding s) (fun x => resetCompleteOp x (fresh s)) s := by
  unfold exec execLinkResetComplete actOn; cases resetEnding s <;> rfl
theorem exec_unknownKind :
    exec .unknownKind s = actOn (headUnknown s) (fun x => unknownKindOp x.1 x.2 (taken s)) s := by
  unfold exec execUnknownKind actOn; cases headUnknown s <;> rfl
theorem exec_responseTimerExpiry :
    exec .responseTimerExpiry s = actOn (timedCard s) (fun x => settle (expireTimer x (fresh s))) s := by
  unfold exec execResponseTimerExpiry actOn; cases timedCard s <;> rfl
theorem exec_recorderMessageDropped (r : LinkRecord) : exec (.recorderMessageDropped r) s =
    actOn (recorderMessage? r) (fun x => settle (takeMessage x (fresh s))) s := by
  simp only [exec, execRecorderMessageDropped, actOn]; cases recorderMessage? r <;> rfl

end ActOn

theorem purgeEnding_tag {s : State} {tag : Byte} (h : purgeEnding s = some tag) : s.mu.purgeTag = some tag := by
  unfold purgeEnding at h
  split at h
  · cases h
  · exact h

theorem resetEnding_tag {s : State} {tag : Byte} (h : resetEnding s = some tag) : s.mu.resetTag = some tag := by
  unfold resetEnding at h
  split at h
  · exact h
  · cases h

end Sys2Proof.Machine
end

section
/-! SUPPORT. What the commands keep of the limits and of the tables' forms: each management record brings at most one
reply, which R170 lets it be taken for, and every other command brings none. The statements O3, O4 and O7. -/

namespace Sys2Proof.Machine

-- Checked one after another, as the tests are, to hold the memory and the threads down.
set_option Elab.async false

/-! ### The table records (R3, R8) -/

/-- R3, R5: a write that passes its checks is staged where the list has room. -/
theorem keeps_tableWriteOp (tag kind : Byte) (position : Nat) (content : List Byte) (s : State) :
    Keeps 1 s (tableWriteOp tag kind position content s) := by
  unfold tableWriteOp
  split
  · exact keeps_placeReply ..
  · rename_i w parsed
    obtain ⟨level, inside⟩ := parseWrite_ok parsed
    split
    · rename_i room
      have staged : Keeps 0 s { s with mu := { s.mu with staging := s.mu.staging ++ [w] } } :=
        { link := fun h => ⟨h.fifo, h.notices, by rw [List.length_append]; exact room⟩
          classes := fun h => ⟨h.classes, fun x hx => by
            rcases List.mem_append.1 hx with hx | hx
            · exact h.staging x hx
            · exact List.mem_singleton.1 hx ▸ level⟩
          index := fun ⟨rising, below, writes⟩ => ⟨rising, below, fun p e hw => by
            rcases List.mem_append.1 hw with hw | hw
            · exact writes p e hw
            · exact inside p e (List.mem_singleton.1 hw).symm⟩ }
      exact staged.answer (keeps_placeReply ..)
    · exact keeps_placeReply ..

/-- R8: the staged writes are applied and the list is emptied. -/
theorem keeps_fenceTables (s : State) : Keeps 0 s { s with mu := fenceTables s.mu } where
  link := fun h => ⟨h.fifo, h.notices, Nat.zero_le _⟩
  replies := by
    have frame := applyAll_frame s.mu.staging s.mu
    simp only [repliesOwed, fenceTables]
    rw [frame]
    exact Nat.le_refl _
  classes := fun h => ⟨applyAll_classes h.classes h.staging, nofun⟩
  index := fun ⟨rising, below, writes⟩ => ⟨applyAll_rising _ rising, applyAll_positions below writes, nofun⟩
  lists := fun h => ⟨(applyAll_classes_length ..).trans h.classes,
    ⟨(applyAll_tones_length ..).trans h.tones.1, applyAll_tones h.tones.2⟩, h.turns, h.sets⟩

theorem keeps_tableFenceOp (tag : Byte) (s : State) : Keeps 1 s (tableFenceOp tag s) :=
  (keeps_fenceTables s).answer (keeps_placeReply ..)

/-! ### Set records and cards (R131, R132, R146) -/

theorem keeps_setReleaseOp (tag : Byte) (n : Nat) (s : State) : Keeps 1 s (setReleaseOp tag n s) := by
  unfold setReleaseOp
  split
  · exact keeps_placeReply ..
  · have released : Keeps 0 s (releaseSet n s) := by
      unfold releaseSet
      split
      · exact (keeps_closeSet ..).trans (keeps_drainBacklog _)
      · exact .refl s
    exact (released.answer (keeps_placeReply ..)).trans (keeps_settle _)

theorem keeps_discardSet (n : Nat) (s : State) : Keeps 0 s (discardSet n s) := by
  refine (keeps_emptySet n s).trans ?_
  exact (keeps_sc (freeCards_counts (setCards (setAt s.sau n)) (emptySet n s).sc)).trans {}

theorem keeps_setDiscardOp (tag : Byte) (n : Nat) (s : State) : Keeps 1 s (setDiscardOp tag n s) := by
  unfold setDiscardOp
  split
  · exact keeps_placeReply ..
  · simp only
    split
    case h_3 | h_4 => exact keeps_placeReply ..
    all_goals exact ((keeps_placeReply ..).trans (keeps_discardSet ..)).trans (keeps_settle _)

theorem keeps_cardCancelOp (tag : Byte) (s : State) : Keeps 1 s (cardCancelOp tag s) := by
  unfold cardCancelOp
  split
  · exact (((keeps_placeReply ..).trans (keeps_sendCard ..)).trans (keeps_endAttempt ..)).trans (keeps_settle _)
  · exact keeps_placeReply ..

/-! ### The store records (R107, R110 to R112) -/

theorem keeps_storeSetupOp (tag : Byte) (interval banks : Nat) (s : State) :
    Keeps 1 s (storeSetupOp tag interval banks s) := by
  unfold storeSetupOp
  split
  · exact keeps_placeReply ..
  · have stored : Keeps 0 s { s with sc := { applyBanks banks s.sc with interval := interval } } := keeps_sc rfl
    exact (stored.answer (keeps_placeReply ..)).trans (keeps_settle _)

theorem keeps_storeRetainOp (tag : Byte) (s : State) : Keeps 1 s (storeRetainOp tag s) := by
  unfold storeRetainOp
  split
  · split
    · exact (keeps_sc (sc := { s.sc with mode := .retaining }) rfl).answer (keeps_placeReply ..)
    · exact keeps_placeReply ..
  · exact keeps_placeReply ..
  · exact keeps_placeReply ..

theorem keeps_storeWakeOp (tag : Byte) (s : State) : Keeps 1 s (storeWakeOp tag s) := by
  unfold storeWakeOp
  split
  · exact (keeps_placeReply ..).trans (keeps_beginWake _)
  · exact keeps_placeReply ..
  · exact keeps_placeReply ..

theorem keeps_purgeFrame (s : State) : Keeps 0 s (purgeFrame s) := by
  unfold purgeFrame
  split
  case h_1 | h_2 => exact keeps_abortWith ..
  all_goals exact .refl s

/-- R113: an emptied SAU has its eight records of 64 positions. -/
theorem blank_sets : Sau.blank.sets.length = Config.setCount
    ∧ ∀ r, r ∈ Sau.blank.sets → r.sheets.length = Config.sheetPositions :=
  ⟨rfl, fun r hr => by rw [List.eq_of_mem_replicate (show r ∈ List.replicate 8 SetRecord.blank from hr)]; rfl⟩

/-- R112, R133, R148: the SAU and the CS are emptied. -/
theorem keeps_purgeAll (s : State) : Keeps 0 s (purgeAll s) where
  queue := fun _ => Nat.zero_le _
  lists := fun h => ⟨h.classes, h.tones, h.turns, blank_sets⟩

theorem keeps_againTarget (s : State) : Keeps 0 s (againTarget s) := by
  unfold againTarget
  split
  case h_1 => exact keeps_targetOp ..
  all_goals exact .refl s

theorem keeps_purgeLast (tag : Byte) (s : State) : Keeps 1 s (purgeLast tag s) :=
  (keeps_sc (restoreSetup_counts _)).answer (keeps_placeReply ..)

/-- R170: the reply of a purge that waits is owed. -/
theorem keeps_purgeEnd (tag : Byte) (s : State) : Keeps 1 s (purgeEnd tag s) := by
  unfold purgeEnd
  split
  · exact { replies := by simp [repliesOwed] }
  · exact keeps_purgeLast tag s

theorem keeps_storePurgeOp (tag : Byte) (s : State) : Keeps 1 s (storePurgeOp tag s) := by
  unfold storePurgeOp
  split
  · exact keeps_placeReply ..
  · have purged := ((keeps_purgeFrame s).trans (keeps_purgeAll _)).trans (keeps_againTarget _)
    exact (purged.answer (keeps_purgeEnd tag _)).trans (keeps_settle _)

/-- R170: the reply that was owed is held. -/
theorem keeps_purgeDoneOp {tag : Byte} {s : State} (h : s.mu.purgeTag = some tag) : Keeps 0 s (purgeDoneOp tag s) := by
  have last : Keeps 0 s (purgeLast tag
      { s with mu := { s.mu with purgeTag := none }, sc := { s.sc with askAgain := true } }) :=
    { replies := by
        simp only [repliesOwed, h, purgeLast_fli, purgeLast_mu, List.length_append, List.length_singleton,
          Option.isSome_none, Option.isSome_some, oneIf_true, oneIf_false]
        omega }
  exact last.trans (keeps_settle _)

/-! ### Setup, status and resets (R87, R164, R174 to R176, R180) -/

theorem keeps_monitorSetupOp (tag : Byte) (m : MonitorFields) (s : State) : Keeps 1 s (monitorSetupOp tag m s) := by
  unfold monitorSetupOp
  split
  · exact keeps_placeReply ..
  · rename_i on _
    have set : Keeps 0 s { s with dm := s.dm.setTo m on } := {}
    have warned (u : State) : Keeps 0 u (warnLate s.dm on u) := by
      unfold warnLate
      split
      · split
        · exact keeps_raiseNotice ..
        · exact .refl u
      · exact .refl u
    exact (set.trans (warned _)).answer (keeps_placeReply ..)

theorem keeps_recorderSetupOp (tag : Byte) (pr timeout : Nat) (s : State) :
    Keeps 1 s (recorderSetupOp tag pr timeout s) := by
  unfold recorderSetupOp
  split
  · exact (keeps_cli s { s.cli with pr := pr, timeout := timeout }).answer (keeps_placeReply ..)
  · exact keeps_placeReply ..

theorem keeps_statusClearOp (tag mask : Byte) (s : State) : Keeps 1 s (statusClearOp tag mask s) :=
  Keeps.answer (t := { s with mu := { s.mu with sticky := s.mu.sticky.clear mask } }) {} (keeps_placeReply ..)

/-- R93: the store's part of LINK RESET counts nothing up, and every turn is READ. -/
theorem resetStore_deferral (sc : Sc) : (resetStore sc).deferral ≤ sc.deferral := by
  unfold resetStore
  rw [show (storeSettle _).deferral = _ from congrArg Prod.fst (storeSettle_counts _)]
  split
  · exact Nat.le_refl _
  · exact Nat.zero_le _

theorem resetStore_turns (sc : Sc) : (resetStore sc).turns.length = Config.bankCount :=
  congrArg Prod.snd (storeSettle_counts _)

/-- R176: the staging list, the SAU and the CS are emptied, and the reply is owed. -/
theorem keeps_linkResetOp (tag : Byte) (s : State) : Keeps 1 s (linkResetOp tag s) := by
  have abandoned : Keeps 0 s (emptyIntake (abandonCard s)) := by
    refine Keeps.trans ?_ (keeps_emptyIntake _)
    unfold abandonCard
    split
    · exact keeps_sendCard ..
    · exact .refl s
  refine abandoned.answer
    { link := fun h => ⟨h.fifo, h.notices, Nat.zero_le _⟩
      replies := ?_
      queue := fun _ => Nat.zero_le _
      deferral := fun h => Nat.le_trans (resetStore_deferral _) h
      classes := fun h => ⟨h.classes, nofun⟩
      index := fun ⟨rising, below, _⟩ => ⟨rising, below, nofun⟩
      lists := fun h => ⟨h.classes, h.tones, resetStore_turns _, blank_sets⟩ }
  have owed : repliesOwed (linkResetOp tag s)
      = (emptyIntake (abandonCard s)).fli.replies.length + 1 + oneIf (emptyIntake (abandonCard s)).mu.purgeTag.isSome :=
    rfl
  rw [owed, repliesOwed]
  omega

/-- R176: the reply that was owed is held, and the notices are discarded. -/
theorem keeps_resetCompleteOp {tag : Byte} {s : State} (h : s.mu.resetTag = some tag) :
    Keeps 0 s (resetCompleteOp tag s) where
  link := fun l => ⟨l.fifo, Nat.zero_le _, l.staging⟩
  replies := by simp [repliesOwed, resetCompleteOp, h]

/-! ### Power-up, the link and the store's events -/

theorem keeps_handOver (c : ConfigItems) (s : State) : Keeps 0 s (handOver c s) := {}
theorem keeps_raiseLink (s : State) : Keeps 0 s (raiseLink s) := {}
theorem keeps_dropLink (s : State) : Keeps 0 s (dropLink s) := by
  unfold dropLink
  exact Keeps.trans {} (keeps_raiseNotice ..)

/-- R171 to R173: an item that has been sent leaves its queue. -/
theorem keeps_endSending (s : State) : Keeps 0 s (endSending s) := by
  unfold endSending
  split
  · exact .refl s
  · split
    · exact {}
    · rename_i held
      exact { replies := by simp [repliesOwed, held] }
  · split
    · exact {}
    · rename_i held
      have shorter {n : Notice} {ns : List Notice} : s.fli.notices = n :: ns → ns.length ≤ s.fli.notices.length :=
        fun e => e ▸ Nat.le_succ _
      exact { link := fun h => ⟨h.fifo, Nat.le_trans (shorter held) h.notices, h.staging⟩ }

theorem keeps_writeServed (w : WriteBurst) (s : State) : Keeps 0 s (writeServed w s) := by
  refine (keeps_sc (endWrite_counts w s.sc)).trans ?_
  unfold writeServed
  simp only
  split
  · exact keeps_settle _
  · exact keeps_advance _

theorem keeps_readServed (r : ReadBurst) (s : State) : Keeps 0 s (readServed r s) := by
  unfold readServed
  refine Keeps.trans ?_ (keeps_storeOnly _)
  exact ((keeps_sc (endRead_counts r s.sc)).trans {}).trans (keeps_pump _)

theorem keeps_endWake (s : State) : Keeps 0 s (endWake s) := by
  refine ((keeps_sc (sc := { s.sc with mode := .active }) rfl).trans (keeps_storeOnly _)).trans ?_
  unfold endWake
  simp only
  split
  · exact ((keeps_popHead _).trans (keeps_takeHeader ..)).trans (keeps_settle _)
  · exact .refl _

/-! ### Every command -/

/-- What a command can bring: no reply, or one for a management record that could be taken (R170). -/
def Answers (s t : State) : Prop := Keeps 0 s t ∨ (mgmtReady s = true ∧ Keeps 1 s t)

/-- R170: a management record is taken with fewer than 4 replies held and none owed. -/
theorem mgmtReady_owed {s : State} (h : mgmtReady s = true) : repliesOwed s < Config.replyPlaces := by
  simp only [mgmtReady, Bool.and_eq_true, decide_eq_true_eq, Option.isNone_iff_eq_none] at h
  obtain ⟨⟨⟨_, room⟩, noReset⟩, noPurge⟩ := h
  simp only [repliesOwed, noReset, noPurge, Option.isSome_none, oneIf_false]
  exact room

theorem Answers.replies {s t : State} (h : Answers s t) (hs : RepliesBounded s) : RepliesBounded t := by
  rw [repliesBounded_iff] at hs ⊢
  rcases h with h | ⟨ready, h⟩
  · exact Nat.le_trans h.replies hs
  · exact Nat.le_trans h.replies (mgmtReady_owed ready)

theorem mgmtHead_ready {s : State} (h : mgmtHead s ≠ none) : mgmtReady s = true := by
  unfold mgmtHead at h
  split at h
  · assumption
  · exact absurd rfl h

theorem Answers.keeps {s t : State} (h : Answers s t) : Keeps 1 s t := h.elim Keeps.mono And.right

section Completed
variable {α : Type} {c : Instr} {s t : State} {head : Option α} {op : α → State}

/-- A command that acts on what stands there keeps what its effect keeps. -/
theorem actOn_keeps (e : exec c s = actOn head op s) (h : exec c s = .next t)
    (hop : ∀ a, head = some a → Keeps 0 s (op a)) : Answers s t := by
  rw [e] at h
  cases head with
  | none => cases h; exact .inl (keeps_fresh s)
  | some a => cases h; exact .inl ((hop a rfl).trans (keeps_finish _))

/-- A command of the MU brings its reply with its record at the head. -/
theorem actOn_answers (e : exec c s = actOn head op s) (h : exec c s = .next t) (hn : mgmtHead s = none → head = none)
    (hop : ∀ a, Keeps 1 (taken s) (op a)) : Answers s t := by
  rw [e] at h
  cases head with
  | none => cases h; exact .inl (keeps_fresh s)
  | some a =>
    cases h
    have ready : mgmtReady s = true := mgmtHead_ready fun none => nomatch hn none
    exact .inr ⟨ready, ((keeps_taken s).answer (hop a)).trans (keeps_finish _)⟩

end Completed

/-- Every command but POWER_ON keeps the limits and the tables' forms. -/
theorem exec_answers {c : Instr} {s t : State} (hp : c ≠ .powerOn) (h : exec c s = .next t) : Answers s t := by
  have film {u : State} (k : Keeps 0 (fresh s) u) : Keeps 0 s u := (keeps_fresh s).trans k
  cases c with
  | powerOn => exact absurd rfl hp
  | loadingEnd words =>
    simp only [exec, execLoadingEnd] at h
    split at h <;> cases h
    · exact .inl ((film (keeps_handOver ..)).trans (keeps_finish _))
    · exact .inl (keeps_fresh s)
  | linkUp =>
    simp only [exec, execLinkUp] at h
    split at h <;> cases h
    · exact .inl ((film (keeps_raiseLink _)).trans (keeps_finish _))
    · exact .inl (keeps_fresh s)
  | linkLoss =>
    simp only [exec, execLinkLoss] at h
    split at h <;> cases h
    · exact .inl ((((film (keeps_dropLink _)).trans (keeps_intakeLinkLoss _)).trans (keeps_settle _)).trans
        (keeps_finish _))
    · exact .inl (keeps_fresh s)
  | recordReceived r =>
    simp only [exec, execRecordReceived] at h
    split at h <;> cases h
    · exact .inl ((film (keeps_takeRecord ..)).trans (keeps_finish _))
    · exact .inl (keeps_fresh s)
  | frameHeader =>
    simp only [exec, execFrameHeader] at h
    split at h
    · split at h <;> cases h
      · exact .inl ((film (keeps_takeFrameHeader ..)).trans (keeps_finish _))
      · exact .inl ((keeps_fresh s).trans (keeps_finish _))
    · cases h; exact .inl (keeps_fresh s)
  | line => exact actOn_keeps (exec_line s) h fun _ _ => (keeps_taken s).trans (keeps_takeLineRecord ..)
  | frameEnd => exact actOn_keeps (exec_frameEnd s) h fun _ _ => (keeps_taken s).trans (keeps_takeFrameEndRecord ..)
  | start => exact actOn_keeps (exec_start s) h fun _ _ => film (keeps_takeTarget ..)
  | endTarget => exact actOn_keeps (exec_endTarget s) h fun _ _ => film (keeps_takeTarget ..)
  | batchEnd => exact actOn_keeps (exec_batchEnd s) h fun _ _ => film (keeps_takeTarget ..)
  | lossIndication => exact actOn_keeps (exec_lossIndication s) h fun _ _ => film (keeps_takeLoss ..)
  | tableWrite =>
    exact actOn_answers (exec_tableWrite s) h (fun e => by simp [headTableWrite, e]) fun _ => keeps_tableWriteOp ..
  | tableFence =>
    exact actOn_answers (exec_tableFence s) h (fun e => by simp [headTableFence, e]) fun _ => keeps_tableFenceOp ..
  | tableRead =>
    exact actOn_answers (exec_tableRead s) h (fun e => by simp [headTableRead, e]) fun _ => keeps_placeReply ..
  | tableDescribe =>
    exact actOn_answers (exec_tableDescribe s) h (fun e => by simp [headTableDescribe, e]) fun _ => keeps_placeReply ..
  | setRelease =>
    exact actOn_answers (exec_setRelease s) h (fun e => by simp [headSetRelease, e]) fun _ => keeps_setReleaseOp ..
  | setDiscard =>
    exact actOn_answers (exec_setDiscard s) h (fun e => by simp [headSetDiscard, e]) fun _ => keeps_setDiscardOp ..
  | cardCancel =>
    exact actOn_answers (exec_cardCancel s) h (fun e => by simp [headCardCancel, e]) fun _ => keeps_cardCancelOp ..
  | storeSetup =>
    exact actOn_answers (exec_storeSetup s) h (fun e => by simp [headStoreSetup, e]) fun _ => keeps_storeSetupOp ..
  | storeRetain =>
    exact actOn_answers (exec_storeRetain s) h (fun e => by simp [headStoreRetain, e]) fun _ => keeps_storeRetainOp ..
  | storeWake =>
    exact actOn_answers (exec_storeWake s) h (fun e => by simp [headStoreWake, e]) fun _ => keeps_storeWakeOp ..
  | storePurge =>
    exact actOn_answers (exec_storePurge s) h (fun e => by simp [headStorePurge, e]) fun _ => keeps_storePurgeOp ..
  | storePurgeDone => exact actOn_keeps (exec_storePurgeDone s) h fun _ e => film (keeps_purgeDoneOp (purgeEnding_tag e))
  | monitorSetup =>
    exact actOn_answers (exec_monitorSetup s) h (fun e => by simp [headMonitorSetup, e])
      fun _ => keeps_monitorSetupOp ..
  | recorderSetup =>
    exact actOn_answers (exec_recorderSetup s) h (fun e => by simp [headRecorderSetup, e])
      fun _ => keeps_recorderSetupOp ..
  | statusRead =>
    exact actOn_answers (exec_statusRead s) h (fun e => by simp [headStatusRead, e]) fun _ => keeps_placeReply ..
  | statusClear =>
    exact actOn_answers (exec_statusClear s) h (fun e => by simp [headStatusClear, e]) fun _ => keeps_statusClearOp ..
  | linkReset =>
    exact actOn_answers (exec_linkReset s) h (fun e => by simp [headLinkReset, e]) fun _ => keeps_linkResetOp ..
  | linkResetComplete =>
    exact actOn_keeps (exec_linkResetComplete s) h fun _ e => film (keeps_resetCompleteOp (resetEnding_tag e))
  | unknownKind =>
    exact actOn_answers (exec_unknownKind s) h (fun e => by simp [headUnknown, e]) fun _ => keeps_placeReply ..
  | writeBurstServed =>
    simp only [exec, execWriteBurstServed] at h
    split at h
    · split at h <;> cases h
      exact .inl ((film (keeps_writeServed ..)).trans (keeps_finish _))
    · cases h; exact .inl (keeps_fresh s)
  | readBurstServed =>
    simp only [exec, execReadBurstServed] at h
    split at h
    · split at h <;> cases h
      exact .inl ((film (keeps_readServed ..)).trans (keeps_finish _))
    · cases h; exact .inl (keeps_fresh s)
  | refreshDue => cases h; exact .inl (film (keeps_refreshDue _))
  | refreshEnd => cases h; exact .inl (film (keeps_refreshEnd _))
  | wakeEnd =>
    simp only [exec, execWakeEnd] at h
    split at h <;> cases h
    · exact .inl ((film (keeps_endWake _)).trans (keeps_finish _))
    · exact .inl (keeps_fresh s)
  | responseTimerExpiry =>
    exact actOn_keeps (exec_responseTimerExpiry s) h fun _ _ => film ((keeps_endAttempt ..).trans (keeps_settle _))
  | recorderState ready =>
    cases h; exact .inl ((film ((keeps_takeRecorderState ..).trans (keeps_settle _))).trans (keeps_finish _))
  | cardAccepted echo =>
    cases h; exact .inl ((film ((keeps_takeAccepted ..).trans (keeps_settle _))).trans (keeps_finish _))
  | cardSpoiled echo reason =>
    cases h; exact .inl ((film ((keeps_takeSpoiled ..).trans (keeps_settle _))).trans (keeps_finish _))
  | recorderRestarted =>
    cases h; exact .inl ((film ((keeps_takeRestarted _).trans (keeps_settle _))).trans (keeps_finish _))
  | recorderMessageDropped r =>
    exact actOn_keeps (exec_recorderMessageDropped s r) h fun _ _ => film ((keeps_takeMessage ..).trans (keeps_settle _))
  | returnSendEnd =>
    simp only [exec, execReturnSendEnd] at h
    split at h <;> cases h
    · exact .inl ((film (keeps_endSending _)).trans (keeps_finish _))
    · exact .inl (keeps_fresh s)

/-! ### The state right after reset -/

/-- R93, log entry 3: with all four banks enabled every slot is FREE. -/
theorem emptySlots_all : emptySlots Config.defaultBanks = List.replicate Config.slotCount .free := List.append_nil _

theorem slotsFollowBanks_reset : SlotsFollowBanks State.reset := by
  have slots : State.reset.sc.slots = List.replicate Config.slotCount .free := emptySlots_all
  refine ⟨by rw [slots, List.length_replicate], fun n hn _ => ?_, fun n hn off => ?_⟩
  · show n / 128 < 4
    have : n < 512 := hn
    omega
  · rw [slotAt, slots, getD_inside (by rwa [List.length_replicate]), List.getElem_replicate] at off
    cases off

theorem classesStored_reset : ClassesStored State.reset where
  classes := fun c hc => by
    rw [List.eq_of_mem_replicate (show c ∈ List.replicate 16 ClassEntry.powerOn from hc)]
    exact powerOn_storedOk
  staging := nofun

theorem listsShaped_reset : ListsShaped State.reset where
  classes := rfl
  tones := ⟨rfl, fun t ht => by
    have one : t = identityTone ∨ t = inverseTone ∨ t ∈ List.replicate 6 identityTone := by
      simpa only [List.mem_cons] using (show t ∈ identityTone :: inverseTone :: List.replicate 6 identityTone from ht)
    have named : t = identityTone ∨ t = inverseTone := by
      rcases one with rfl | rfl | other
      · exact .inl rfl
      · exact .inr rfl
      · exact .inl (List.eq_of_mem_replicate other)
    rcases named with rfl | rfl <;> simp only [identityTone, inverseTone, List.length_map, List.length_range]⟩
  turns := rfl
  sets := blank_sets

/-- Settles O3: every property is read off the reset values. -/
theorem invariantsAtReset : Obligations.InvariantsAtReset := by
  refine ⟨⟨Nat.zero_le _, Nat.zero_le _, Nat.zero_le _⟩, Nat.zero_le _, Nat.zero_le _, Nat.zero_le _, rfl,
    slotsFollowBanks_reset, classesStored_reset, ⟨.nil, nofun, nofun⟩, listsShaped_reset, ?_, nofun, ?_, rfl, ?_,
    ⟨nofun, trivial, trivial⟩⟩
  · unfold ThresholdsOrdered; decide
  · exact ⟨by decide, by decide, by decide, by decide, by decide, by decide, by decide⟩
  · unfold OneOpen; decide

/-- POWER_ON leaves the reset values, whatever commands wait. -/
theorem powerOn_limits (cs : List Instr) :
    let t := { State.reset with pending := cs }
    (LinkBounded t ∧ RepliesBounded t ∧ QueueBounded t ∧ DeferralBounded t) ∧ ClassesStored t ∧ IndexRising t
      ∧ ListsShaped t := by
  obtain ⟨link, replies, queue, deferral, _, _, classes, index, lists, _⟩ := invariantsAtReset
  exact ⟨⟨⟨link.fifo, link.notices, link.staging⟩, replies, queue, deferral⟩, ⟨classes.classes, classes.staging⟩,
    index, ⟨lists.classes, lists.tones, lists.turns, lists.sets⟩⟩

/-! ### Every step -/

/-- A step idles, or leaves the reset values, or keeps the limits and the tables' forms. -/
theorem step_answers {s t : State} (h : step s = .next t) :
    (∃ cs, t = { State.reset with pending := cs }) ∨ Answers s t := by
  unfold step at h
  split at h
  · cases h; exact .inr (.inl (.refl s))
  · rename_i c cs _
    by_cases hp : c = .powerOn
    · subst hp; cases h; exact .inl ⟨_, rfl⟩
    · have dequeued : Keeps 0 s { s with pending := cs } := {}
      exact .inr ((exec_answers hp h).imp dequeued.trans (And.imp_right dequeued.answer))

/-- Settles O4, by what each command keeps (`exec_answers`). -/
theorem stepKeepsCountsBounded : Obligations.StepKeepsCountsBounded := by
  intro s t h
  rcases step_answers h with ⟨cs, rfl⟩ | answers
  · obtain ⟨link, replies, queue, deferral⟩ := (powerOn_limits cs).1
    exact ⟨fun _ => link, fun _ => replies, fun _ => queue, fun _ => deferral⟩
  · exact ⟨answers.keeps.link, answers.replies, answers.keeps.queue, answers.keeps.deferral⟩

/-- Settles O7, by what each command keeps (`exec_answers`). -/
theorem stepKeepsTables : Obligations.StepKeepsTables := by
  intro s t h
  rcases step_answers h with ⟨cs, rfl⟩ | answers
  · obtain ⟨classes, index, lists⟩ := (powerOn_limits cs).2
    exact ⟨fun _ => classes, fun _ => index, fun _ => lists⟩
  · exact ⟨answers.keeps.classes, answers.keeps.index, answers.keeps.lists⟩

end Sys2Proof.Machine
end

section
/-! SUPPORT. The table records as the statements have them: TABLE WRITE, TABLE FENCE, TABLE READ and TABLE DESCRIBE
(R3, R8, R18, R19), and the match of a header against the Index Table (R11 to R15). -/

namespace Sys2Proof.Machine

-- Checked one after another, as the tests are, to hold the memory and the threads down.
set_option Elab.async false

/-! ### TABLE WRITE (R3) -/

theorem parseWrite_unknownKind {kind : Byte} (position : Nat) (content : List Byte) (h : tableKind? kind = none) :
    parseWrite kind position content = .error .badField := by
  simp [parseWrite, h]

theorem parseWrite_outside {kind : Byte} {k : TableKind} {position : Nat} (content : List Byte)
    (h : tableKind? kind = some k) (hp : positionOk k position = false) :
    parseWrite kind position content = .error .badPosition := by
  simp [parseWrite, h, hp]

section ParseWrite
variable {position : Nat} {content : List Byte}

theorem parseWrite_index {e : Option IndexEntry} (h : position < 4096) (parsed : parseIndexContent content = some e) :
    parseWrite 1 position content = .ok (.index position e) := by
  simp only [parseWrite, tableKind?_index, positionOk_index, h, decide_true, if_true, parsed]

theorem parseWrite_badIndex (h : position < 4096) (parsed : parseIndexContent content = none) :
    parseWrite 1 position content = .error .badField := by
  simp only [parseWrite, tableKind?_index, positionOk_index, h, decide_true, if_true, parsed]

theorem parseWrite_cls {c : ClassEntry} (h : position < 16) (parsed : parseClassContent content = some c) :
    parseWrite 2 position content = .ok (.cls position c) := by
  simp only [parseWrite, tableKind?_cls, positionOk_cls, h, decide_true, if_true, parsed]

theorem parseWrite_badCls (h : position < 16) (parsed : parseClassContent content = none) :
    parseWrite 2 position content = .error .badField := by
  simp only [parseWrite, tableKind?_cls, positionOk_cls, h, decide_true, if_true, parsed]

theorem parseWrite_tone (content : List Byte) (h : position < 2048) :
    parseWrite 3 position content = .ok (.tone (position / 256) (position % 256) (content.getD 0 0)) := by
  simp only [parseWrite, tableKind?_tone, positionOk_tone, h, decide_true, if_true, byteAt]

end ParseWrite

section TableWrite
variable {s : State} {tag kind : Byte} {position : Nat} {content : List Byte}

theorem exec_tableWrite_taken (h : mgmtHead s = some (tag, .tableWrite kind position content)) :
    exec .tableWrite s = .next (finish (tableWriteOp tag kind position content (taken s))) := by
  rw [exec_tableWrite]; simp [headTableWrite, h, actOn]

/-- A write that fails a check is refused with the check's reason. -/
theorem tableWrite_refused (h : mgmtHead s = some (tag, .tableWrite kind position content)) {why : Reason}
    (e : parseWrite kind position content = .error why) :
    ∃ t, exec .tableWrite s = .next t ∧ EndOfCommand (answeredBy tag 0x40 (.refused why) s) t :=
  completes_command (exec_tableWrite_taken h) (by simp [tableWriteOp, e, answeredBy])

theorem tableWrite_full (h : mgmtHead s = some (tag, .tableWrite kind position content)) {w : StagedWrite}
    (e : parseWrite kind position content = .ok w) (full : 64 ≤ s.mu.staging.length) :
    ∃ t, exec .tableWrite s = .next t ∧ EndOfCommand (answeredBy tag 0x40 (.refused .full) s) t := by
  refine completes_command (exec_tableWrite_taken h) ?_
  simp [tableWriteOp, e, answeredBy, taken, Config.stagingPlaces, Nat.not_lt.2 full]

theorem tableWrite_staged (h : mgmtHead s = some (tag, .tableWrite kind position content)) {w : StagedWrite}
    (e : parseWrite kind position content = .ok w) (room : s.mu.staging.length < 64) :
    ∃ t, exec .tableWrite s = .next t ∧ EndOfCommand
      { answeredBy tag 0x40 (.ok (.staged (s.mu.staging.length + 1))) s with
        mu := { s.mu with staging := s.mu.staging ++ [w] } } t := by
  refine completes_command (exec_tableWrite_taken h) ?_
  simp only [tableWriteOp, e]
  exact if_pos room

end TableWrite

/-- Settles O17: the checks are those of `parseWrite`, in its order, and then the room in the staging list. -/
theorem tableWriteChecksInOrder : Obligations.TableWriteChecksInOrder := by
  intro s tag kind position content h
  refine ⟨fun h1 h2 h3 => ?_, fun outside => ?_, fun bad => ?_, fun w passes => ?_⟩
  · exact tableWrite_refused h (parseWrite_unknownKind _ _ (tableKind?_none h1 h2 h3))
  · refine tableWrite_refused h ?_
    rcases outside with ⟨rfl, hp⟩ | ⟨rfl, hp⟩ | ⟨rfl, hp⟩
    · exact parseWrite_outside content tableKind?_index (by simpa using hp)
    · exact parseWrite_outside content tableKind?_cls (by simpa using hp)
    · exact parseWrite_outside content tableKind?_tone (by simpa using hp)
  · refine tableWrite_refused h ?_
    rcases bad with ⟨rfl, hp, e⟩ | ⟨rfl, hp, e⟩
    · exact parseWrite_badIndex hp e
    · exact parseWrite_badCls hp e
  · have parsed : parseWrite kind position content = .ok w := by
      rcases passes with ⟨rfl, hp, e, he, rfl⟩ | ⟨rfl, hp, c, hc, rfl⟩ | ⟨rfl, hp, rfl⟩
      · exact parseWrite_index hp he
      · exact parseWrite_cls hp hc
      · exact parseWrite_tone content hp
    exact ⟨tableWrite_full h parsed, tableWrite_staged h parsed⟩

/-! ### TABLE FENCE (R8) -/

/-- What a fence touches of the MU. -/
theorem fenceTables_frame (mu : Mu) : fenceTables mu = { mu with
    index := (fenceTables mu).index, classes := (fenceTables mu).classes, tones := (fenceTables mu).tones
    staging := [], generation := mu.generation + 1 } := by
  simp only [fenceTables]
  rw [applyAll_frame]

/-- Settles O18: the published tables are the active ones with the staged writes applied in order. -/
theorem tableFencePublishes : Obligations.TableFencePublishes := by
  intro s tag h
  have taken : exec .tableFence s = .next (finish (tableFenceOp tag (taken s))) := by
    rw [exec_tableFence]; simp [headTableFence, h, actOn]
  obtain ⟨t, e, ends⟩ := completes_command taken rfl
  exact ⟨fenceTables s.mu, t, e, ends, fenceTables_frame s.mu, fun rising p => indexAt_applyAll _ rising.1 p,
    fun p hp => classAt_applyAll _ hp, fun n i hn hi => inkAt_applyAll _ hn hi⟩

/-! ### TABLE READ (R18) -/

theorem readTable_unknownKind (mu : Mu) {kind : Byte} (position : Nat) (h : tableKind? kind = none) :
    readTable mu kind position = .refused .badField := by
  simp [readTable, h]

theorem readTable_outside (mu : Mu) {kind : Byte} {k : TableKind} {position : Nat} (h : tableKind? kind = some k)
    (hp : positionOk k position = false) : readTable mu kind position = .refused .badPosition := by
  simp [readTable, h, hp]

/-- Table 11-3: the bytes of a valid entry before its drawing key. -/
def entryFields (e : IndexEntry) : List Byte :=
  yesByte true ++ yesByte e.sameSheet ++ yesByte e.superseded ++ [byteOf e.cls] ++ be16 e.roll ++ be16 e.first
    ++ be16 e.count ++ [byteOf e.firstSheet, byteOf e.sheetCount] ++ be16 e.rf

theorem indexBytes_some (e : IndexEntry) :
    indexBytes (some e) = entryFields e ++ (e.key.number ++ revisionBytes e.key.revision) := rfl

theorem entryFields_length (e : IndexEntry) : (entryFields e).length = 14 := rfl

/-- Settles O19: the reply is that of `readTable`. -/
theorem tableReadReturnsActive : Obligations.TableReadReturnsActive := by
  refine ⟨fun s tag kind position h => ?_, fun g => rfl, fun e number revision => ?_⟩
  · have taken : exec .tableRead s = .next (finish (tableReadOp tag kind position (taken s))) := by
      rw [exec_tableRead]; simp [headTableRead, h, actOn]
    obtain ⟨t, e, ends⟩ := completes_command taken rfl
    refine ⟨readTable s.mu kind position, t, e, ends, fun h1 h2 h3 => ?_, fun outside => ?_, ?_, ?_, ?_⟩
    · exact readTable_unknownKind _ _ (tableKind?_none h1 h2 h3)
    · rcases outside with ⟨rfl, hp⟩ | ⟨rfl, hp⟩ | ⟨rfl, hp⟩
      · exact readTable_outside _ tableKind?_index (by simpa using hp)
      · exact readTable_outside _ tableKind?_cls (by simpa using hp)
      · exact readTable_outside _ tableKind?_tone (by simpa using hp)
    · rintro rfl hp
      simp only [readTable, tableKind?_index, positionOk_index, hp, decide_true, if_true]
    · rintro rfl hp
      simp only [readTable, tableKind?_cls, positionOk_cls, hp, decide_true, if_true]
    · rintro rfl hp
      simp only [readTable, tableKind?_tone, positionOk_tone, hp, decide_true, if_true, toneAt]
  · rw [indexBytes_some, revision]
    refine ⟨by simp [entryFields_length, number, revisionBytes], rfl, ?_⟩
    rw [← List.append_assoc, List.drop_left' (by simp [entryFields_length, number])]
    rfl

/-! ### TABLE DESCRIBE (R19) -/

theorem entryAt_of_mem {l : List (Nat × IndexEntry)} (h : (l.map Prod.fst).Pairwise (· < ·)) {p : Nat} {e : IndexEntry}
    (mem : (p, e) ∈ l) : entryAt l p = some e := by
  induction l with
  | nil => cases mem
  | cons x l ih =>
    obtain ⟨above, rising⟩ := List.pairwise_cons.1 h
    rw [entryAt_cons]
    rcases List.mem_cons.1 mem with rfl | mem
    · exact if_pos rfl
    · have lower : x.1 < p := above p (List.mem_map_of_mem mem)
      rw [if_neg (by omega), ih rising mem]

theorem mem_of_entryAt {l : List (Nat × IndexEntry)} {p : Nat} {e : IndexEntry} (h : entryAt l p = some e) :
    (p, e) ∈ l := by
  induction l with
  | nil => cases h
  | cons x l ih =>
    rw [entryAt_cons] at h
    split at h
    · rename_i same; cases h; subst same; exact List.mem_cons_self
    · exact List.mem_cons_of_mem _ (ih h)

/-- R19: the highest valid position. -/
theorem highestValid_some {mu : Mu} (h : (mu.index.map Prod.fst).Pairwise (· < ·)) {p : Nat}
    (e : highestValid mu = some p) : (indexAt mu p).isSome = true ∧ ∀ q, p < q → indexAt mu q = none := by
  obtain ⟨x, last, rfl⟩ := Option.map_eq_some_iff.1 e
  obtain ⟨l, split⟩ := List.getLast?_eq_some_iff.1 last
  have valid : entryAt mu.index x.1 = some x.2 := entryAt_of_mem h (by simp [split])
  refine ⟨by rw [indexAt_eq, valid]; rfl, fun q above => ?_⟩
  rw [indexAt_eq, Option.eq_none_iff_forall_ne_some]
  intro d hd
  have mem := mem_of_entryAt hd
  rw [split] at mem h
  rw [List.map_append, List.pairwise_append] at h
  rcases List.mem_append.1 mem with mem | mem
  · have lower : q < x.1 := h.2.2 q (List.mem_map_of_mem mem) x.1 (by simp)
    omega
  · cases List.mem_singleton.1 mem
    exact Nat.lt_irrefl _ above

theorem highestValid_none {mu : Mu} (e : highestValid mu = none) (q : Nat) : indexAt mu q = none := by
  have empty : mu.index = [] := by simpa [highestValid] using e
  rw [indexAt_eq, empty, entryAt_nil]

/-- R19: the lowest invalid position from `p` on, of a table whose positions from `p` on are these. -/
theorem lowestInvalidFrom_some {l : List (Nat × IndexEntry)} (h : (l.map Prod.fst).Pairwise (· < ·))
    (inside : ∀ q ∈ l.map Prod.fst, q < Config.indexPositions) {p r : Nat} (from_p : ∀ q ∈ l.map Prod.fst, p ≤ q)
    (e : lowestInvalidFrom p l = some r) :
    p ≤ r ∧ r < 4096 ∧ entryAt l r = none ∧ ∀ q, p ≤ q → q < r → (entryAt l q).isSome = true := by
  induction l generalizing p with
  | nil =>
    simp only [lowestInvalidFrom, Option.ite_none_right_eq_some, Option.some.injEq] at e
    obtain ⟨below, rfl⟩ := e
    exact ⟨Nat.le_refl _, below, rfl, fun q _ _ => by omega⟩
  | cons x l ih =>
    obtain ⟨above, rising⟩ := List.pairwise_cons.1 h
    obtain ⟨below, insideTail⟩ := List.forall_mem_cons.1 inside
    obtain ⟨first, _⟩ := List.forall_mem_cons.1 from_p
    unfold lowestInvalidFrom at e
    split at e
    · rename_i same
      subst same
      obtain ⟨lower, bound, invalid, valid⟩ := ih rising insideTail above e
      refine ⟨by omega, bound, by rw [entryAt_cons, if_neg (by omega), invalid], fun q hq hr => ?_⟩
      rw [entryAt_cons]
      split
      · rfl
      · exact valid q (by omega) hr
    · cases e
      refine ⟨Nat.le_refl _, ?_, entryAt_below fun q hq => ?_, fun q _ _ => by omega⟩
      · have : x.1 < 4096 := below
        omega
      · have := from_p q hq
        rcases List.mem_cons.1 hq with rfl | hq
        · omega
        · have := above q hq
          omega

theorem lowestInvalidFrom_none {l : List (Nat × IndexEntry)} {p : Nat} (e : lowestInvalidFrom p l = none) {q : Nat}
    (hp : p ≤ q) (hq : q < 4096) : (entryAt l q).isSome = true := by
  induction l generalizing p with
  | nil =>
    simp only [lowestInvalidFrom, ite_eq_right_iff, reduceCtorEq, imp_false] at e
    exact absurd (show p < 4096 by omega) e
  | cons x l ih =>
    unfold lowestInvalidFrom at e
    split at e
    · rw [entryAt_cons]
      split
      · rfl
      · exact ih e (by omega)
    · cases e

theorem describeTables_other (mu : Mu) {form : Byte} (h0 : form ≠ 0) (h1 : form ≠ 1) :
    describeTables mu form = .refused .badField := by
  unfold describeTables
  split
  · exact absurd (BitVec.eq_of_toNat_eq ‹_›) h0
  · exact absurd (BitVec.eq_of_toNat_eq ‹_›) h1
  · rfl

/-- Settles O20: the positions named are read off a table in rising order. -/
theorem tableDescribeSummarises : Obligations.TableDescribeSummarises := by
  intro s tag form h ⟨rising, inside, _⟩
  have taken : exec .tableDescribe s = .next (finish (tableDescribeOp tag form (taken s))) := by
    rw [exec_tableDescribe]; simp [headTableDescribe, h, actOn]
  refine ⟨?_, ?_, fun h0 h1 => ?_⟩
  · rintro rfl
    exact completes_command taken rfl
  · rintro rfl
    obtain ⟨t, e, ends⟩ := completes_command taken rfl
    refine ⟨highestValid s.mu, lowestInvalidFrom 0 s.mu.index, t, e, ends, fun p => highestValid_some rising,
      highestValid_none, fun p low => ?_, fun low q hq => lowestInvalidFrom_none low (Nat.zero_le q) hq⟩
    obtain ⟨_, bound, invalid, valid⟩ := lowestInvalidFrom_some rising inside (fun _ _ => Nat.zero_le _) low
    exact ⟨bound, invalid, fun q hq => valid q (Nat.zero_le q) hq⟩
  · refine completes_command taken ?_
    simp only [tableDescribeOp, describeTables_other _ h0 h1]
    rfl

/-! ### Matching (R11 to R15) -/

theorem isLeader_iff (ordinal : Nat) : isLeader ordinal = true ↔ 1 ≤ ordinal ∧ ordinal ≤ 4 := by simp [isLeader]

theorem covers_iff (e : IndexEntry) (roll ordinal : Nat) :
    e.covers roll ordinal = true ↔ e.roll = roll ∧ e.first ≤ ordinal ∧ ordinal < e.first + e.count := by
  simp [IndexEntry.covers, and_assoc]

theorem scanIndex_eq_find? (roll ordinal : Nat) (l : List (Nat × IndexEntry)) :
    scanIndex roll ordinal l = l.find? (fun x => x.2.covers roll ordinal) := by
  induction l with
  | nil => rfl
  | cons x l ih => by_cases h : x.2.covers roll ordinal = true <;> simp_all [scanIndex]

/-- R13: the entry found covers the frame, and none at a lower position does. -/
theorem scanIndex_some {mu : Mu} (h : (mu.index.map Prod.fst).Pairwise (· < ·)) {roll ordinal p : Nat} {e : IndexEntry}
    (found : scanIndex roll ordinal mu.index = some (p, e)) :
    indexAt mu p = some e ∧ e.covers roll ordinal = true
      ∧ ∀ q d, q < p → indexAt mu q = some d → ¬ d.covers roll ordinal = true := by
  rw [scanIndex_eq_find?, List.find?_eq_some_iff_append] at found
  obtain ⟨covers, before, after, split, others⟩ := found
  have valid : indexAt mu p = some e := entryAt_of_mem h (by simp [split])
  refine ⟨valid, covers, fun q d lower hd => ?_⟩
  have mem := mem_of_entryAt (indexAt_eq mu q ▸ hd)
  rw [split] at mem h
  rw [List.map_append, List.pairwise_append, List.map_cons, List.pairwise_cons] at h
  obtain ⟨_, ⟨above, _⟩, _⟩ := h
  rcases List.mem_append.1 mem with mem | mem
  · simpa using others _ mem
  · rcases List.mem_cons.1 mem with same | mem
    · cases same; omega
    · have : p < q := above q (List.mem_map_of_mem mem)
      omega

theorem scanIndex_none {mu : Mu} {roll ordinal : Nat} (none : scanIndex roll ordinal mu.index = none) {q : Nat}
    {d : IndexEntry} (hd : indexAt mu q = some d) : ¬ d.covers roll ordinal = true := by
  rw [scanIndex_eq_find?, List.find?_eq_none] at none
  exact none _ (mem_of_entryAt (indexAt_eq mu q ▸ hd))

/-- R11 to R15: the three ways in which a header that is no leader is classified. -/
theorem classify_cases (mu : Mu) (h : Header) :
    (isLeader h.ordinal = true ∧ classify mu h = .leader)
      ∨ isLeader h.ordinal = false ∧
        ((∃ p e, scanIndex h.roll h.ordinal mu.index = some (p, e)
            ∧ classify mu h =
              if e.superseded then .superseded p (e.matched h.ordinal) else .indexed p (e.matched h.ordinal))
          ∨ (scanIndex h.roll h.ordinal mu.index = none ∧ classify mu h = .unindexed (classAt mu 0).assumedRf)) := by
  unfold classify
  split
  · exact .inl ⟨‹_›, rfl⟩
  · refine .inr ⟨Bool.eq_false_iff.2 ‹_›, ?_⟩
    split
    · exact .inl ⟨_, _, ‹_›, rfl⟩
    · exact .inr ⟨‹_›, rfl⟩

/-- Settles O22: by the three ways of `classify_cases`. -/
theorem classificationByFirstMatch : Obligations.ClassificationByFirstMatch := by
  intro s ⟨rising, _⟩ h
  rcases classify_cases s.mu h with ⟨leader, c⟩ | ⟨notLeader, ⟨p, e, found, c⟩ | ⟨none, c⟩⟩
  · rw [c]
    exact ⟨by simpa using (isLeader_iff _).1 leader, nofun, nofun⟩
  · obtain ⟨valid, covers, lower⟩ := scanIndex_some rising found
    obtain ⟨roll, first, last⟩ := (covers_iff ..).1 covers
    have other : ¬ (1 ≤ h.ordinal ∧ h.ordinal ≤ 4) := fun l => by simp [(isLeader_iff _).2 l] at notLeader
    have matched : ∀ q m, classify s.mu h = .superseded q m ∨ classify s.mu h = .indexed q m →
        q = p ∧ m = e.matched h.ordinal ∧ (e.superseded = true ↔ classify s.mu h = .superseded q m) := by
      rw [c]
      cases e.superseded <;> rintro q m (same | same) <;> simp_all
    refine ⟨?_, fun q m hm => ?_, fun rf same => ?_⟩
    · refine iff_of_false ?_ other
      rw [c]; split <;> nofun
    · obtain ⟨rfl, rfl, superseded⟩ := matched q m hm
      refine ⟨e, valid, roll, first, last, superseded, rfl, rfl, rfl, rfl, fun same => ?_, fun same => ?_,
        fun r d below hd => fun cov => lower r d below hd ((covers_iff ..).2 cov)⟩
      · simp [IndexEntry.matched, IndexEntry.sheetOf, same]
      · simp [IndexEntry.matched, IndexEntry.sheetOf, same]
    · rw [c] at same
      split at same <;> cases same
  · rw [c]
    have other : ¬ (1 ≤ h.ordinal ∧ h.ordinal ≤ 4) := fun l => by simp [(isLeader_iff _).2 l] at notLeader
    refine ⟨iff_of_false nofun other, nofun, fun rf same => ?_⟩
    cases same
    exact ⟨rfl, fun q d hd cov => scanIndex_none none hd ((covers_iff ..).2 cov)⟩

end Sys2Proof.Machine
end

section
/-! SUPPORT. The layouts of tables and film records read back (R4, R18, R22, R167, R179, R180, Tables 11-1 to 11-4). -/

namespace Sys2Proof.Machine

-- Checked one after another, as the tests are, to hold the memory and the threads down.
set_option Elab.async false

/-! ### Numbers and codes in bytes (11.1) -/

theorem byteOf_toNat (n : Nat) : (byteOf n).toNat = n % 256 := BitVec.toNat_ofNat n 8

theorem byteOf_read {n : Nat} (h : n ≤ 255) : (byteOf n).toNat = n := by rw [byteOf_toNat]; omega

/-- A two-byte field reads back as the number that was laid out. -/
theorem nat16_of_bytes {p : List Byte} {i n : Nat} (hi : byteAt p i = byteOf (n / 256))
    (lo : byteAt p (i + 1) = byteOf n) (h : n ≤ 65535) : nat16 p i = n := by
  simp only [nat16, nat8, hi, lo, byteOf_toNat]; omega

theorem nat8_of_byte {p : List Byte} {i n : Nat} (hi : byteAt p i = byteOf n) (h : n ≤ 255) : nat8 p i = n := by
  rw [nat8, hi, byteOf_read h]

theorem flag?_yes (b : Bool) : flag? (if b then 1 else 0) = some b := by cases b <;> rfl
theorem fit?_byte (f : Fit) : fit? f.byte = some f := by cases f <;> rfl
theorem rotation?_byte (r : Rotation) : rotation? r.byte = some r := by cases r <;> rfl
theorem shortPolicy?_byte (p : ShortPolicy) : shortPolicy? p.byte = some p := by cases p <;> rfl
theorem inRange_iff (lo hi n : Nat) : inRange lo hi n = true ↔ lo ≤ n ∧ n ≤ hi := by simp [inRange]

/-! ### An INDEX content (Table 11-3) -/

/-- The two bytes of a revision, spaces where it is absent. -/
def revisionPair (r : Option (Byte × Byte)) : Byte × Byte := r.getD (blankCharacter, blankCharacter)

theorem revisionBytes_eq (r : Option (Byte × Byte)) : revisionBytes r = [(revisionPair r).1, (revisionPair r).2] := by
  cases r <;> rfl

/-- R2: a revision of two characters, or none, reads back. -/
theorem revision?_pair {r : Option (Byte × Byte)}
    (h : ∀ a b, r = some (a, b) → isCharacter a = true ∧ isCharacter b = true ∧ a ≠ 0x20) :
    revision? (revisionPair r).1 (revisionPair r).2 = some r := by
  cases r with
  | none => rfl
  | some x =>
    obtain ⟨first, second, notBlank⟩ := h x.1 x.2 rfl
    have nb : (x.1 == blankCharacter) = false := beq_eq_false_iff_ne.2 notBlank
    simp [revision?, revisionPair, first, second, nb, bne]

section IndexContent
variable {e : IndexEntry}

/-- The bytes of a valid entry with a drawing number of 16 characters: the fields, the number, the revision. -/
theorem indexBytes_number (h : e.key.number.length = 16) :
    ((indexBytes (some e)).drop 14).take 16 = e.key.number
      ∧ byteAt (indexBytes (some e)) 30 = (revisionPair e.key.revision).1
      ∧ byteAt (indexBytes (some e)) 31 = (revisionPair e.key.revision).2 := by
  have tail : (indexBytes (some e)).drop 14 = e.key.number ++ revisionBytes e.key.revision := rfl
  have at_key (i : Nat) : byteAt (indexBytes (some e)) (14 + i)
      = byteAt (e.key.number ++ revisionBytes e.key.revision) i := by
    simp only [byteAt, List.getD_eq_getElem?_getD]
    rw [← tail, List.getElem?_drop]
  have at_revision (i : Nat) : byteAt (e.key.number ++ revisionBytes e.key.revision) (16 + i)
      = byteAt (revisionBytes e.key.revision) i := by
    simp only [byteAt, List.getD_eq_getElem?_getD]
    rw [List.getElem?_append_right (by omega), h, Nat.add_sub_cancel_left]
  refine ⟨by rw [tail, List.take_left' h], ?_, ?_⟩
  · rw [show 30 = 14 + (16 + 0) from rfl, at_key, at_revision, revisionBytes_eq]; rfl
  · rw [show 31 = 14 + (16 + 1) from rfl, at_key, at_revision, revisionBytes_eq]; rfl

/-- R4, R18: the content of a valid entry in range passes the checks and stands for the entry. -/
theorem parseIndexEntry_indexBytes (roll : 1 ≤ e.roll ∧ e.roll ≤ 65535) (first : 1 ≤ e.first ∧ e.first ≤ 65535)
    (count : 1 ≤ e.count ∧ e.count ≤ 256) (firstSheet : 1 ≤ e.firstSheet ∧ e.firstSheet ≤ 64)
    (sheetCount : 1 ≤ e.sheetCount ∧ e.sheetCount ≤ 64) (cls : 1 ≤ e.cls ∧ e.cls ≤ 15) (rf : 80 ≤ e.rf ∧ e.rf ≤ 500)
    (length : e.key.number.length = 16) (number : numberOk e.key.number = true)
    (revision : ∀ a b, e.key.revision = some (a, b) → isCharacter a = true ∧ isCharacter b = true ∧ a ≠ 0x20)
    (sheets : e.sameSheet = false → e.firstSheet + e.count ≤ 65) :
    parseIndexEntry (indexBytes (some e)) = some e := by
  obtain ⟨numberRead, rev0, rev1⟩ := indexBytes_number length
  have same : flag? (byteAt (indexBytes (some e)) 1) = some e.sameSheet := flag?_yes _
  have superseded : flag? (byteAt (indexBytes (some e)) 2) = some e.superseded := flag?_yes _
  have revisionRead := revision?_pair revision
  rw [← rev0, ← rev1] at revisionRead
  have clsRead : nat8 (indexBytes (some e)) 3 = e.cls := nat8_of_byte rfl (by omega)
  have rollRead : nat16 (indexBytes (some e)) 4 = e.roll := nat16_of_bytes rfl rfl roll.2
  have firstRead : nat16 (indexBytes (some e)) 6 = e.first := nat16_of_bytes rfl rfl first.2
  have countRead : nat16 (indexBytes (some e)) 8 = e.count := nat16_of_bytes rfl rfl (by omega)
  have firstSheetRead : nat8 (indexBytes (some e)) 10 = e.firstSheet := nat8_of_byte rfl (by omega)
  have sheetCountRead : nat8 (indexBytes (some e)) 11 = e.sheetCount := nat8_of_byte rfl (by omega)
  have rfRead : nat16 (indexBytes (some e)) 12 = e.rf := nat16_of_bytes rfl rfl (by omega)
  have fits : (e.sameSheet || decide (e.firstSheet + e.count - 1 ≤ 64)) = true := by
    cases hs : e.sameSheet with
    | true => rfl
    | false => exact decide_eq_true (by have := sheets hs; omega)
  simp only [parseIndexEntry, same, superseded, revisionRead, clsRead, rollRead, firstRead, countRead, firstSheetRead,
    sheetCountRead, rfRead, numberRead]
  refine if_pos ?_
  simp only [(inRange_iff ..).2, roll, first, count, firstSheet, sheetCount, cls, rf, length, number, fits, and_self,
    Bool.and_self, BEq.rfl]

end IndexContent

/-! ### A CLASS content (Table 11-4) -/

/-- R18, R22: the content of a class in range passes the checks and stands for the class. -/
theorem parseClassContent_classBytes {c : ClassEntry} (rc : 80 ≤ c.rc ∧ c.rc ≤ 500)
    (assumedRf : 80 ≤ c.assumedRf ∧ c.assumedRf ≤ 500) (tone : c.tone ≤ 7) (level : c.level ≤ 3)
    (copies : 1 ≤ c.copies ∧ c.copies ≤ 3) (retries : c.retries ≤ 3) (depth : c.depth ≤ 255) :
    parseClassContent (classBytes c) = some c := by
  have fit : fit? (byteAt (classBytes c) 4) = some c.fit := fit?_byte _
  have landscape : rotation? (byteAt (classBytes c) 5) = some c.landscape := rotation?_byte _
  have portrait : rotation? (byteAt (classBytes c) 6) = some c.portrait := rotation?_byte _
  have short : shortPolicy? (byteAt (classBytes c) 13) = some c.short := shortPolicy?_byte _
  have breakIn : flag? (byteAt (classBytes c) 14) = some c.breakIn := flag?_yes _
  have yield : flag? (byteAt (classBytes c) 15) = some c.yield := flag?_yes _
  have margin : byteAt (classBytes c) 9 = c.margin := rfl
  have rcRead : nat16 (classBytes c) 0 = c.rc := nat16_of_bytes rfl rfl (by omega)
  have rfRead : nat16 (classBytes c) 2 = c.assumedRf := nat16_of_bytes rfl rfl (by omega)
  have toneRead : nat8 (classBytes c) 7 = c.tone := nat8_of_byte rfl (by omega)
  have depthRead : nat8 (classBytes c) 8 = c.depth := nat8_of_byte rfl depth
  have levelRead : nat8 (classBytes c) 10 = c.level := nat8_of_byte rfl (by omega)
  have copiesRead : nat8 (classBytes c) 11 = c.copies := nat8_of_byte rfl (by omega)
  have retriesRead : nat8 (classBytes c) 12 = c.retries := nat8_of_byte rfl (by omega)
  simp only [parseClassContent, fit, landscape, portrait, short, breakIn, yield, margin, rcRead, rfRead, toneRead,
    depthRead, levelRead, copiesRead, retriesRead]
  refine if_pos ?_
  simp only [(inRange_iff ..).2, rc, assumedRf, tone, level, copies, retries, and_self, Bool.and_self, decide_true]

/-! ### Film records (Tables 11-1 and 11-2, R180) -/

theorem checkHolds_sealRecord (kind : Byte) (payload : List Byte) : checkHolds (sealRecord kind payload) = true :=
  beq_self_eq_true _

/-- R167, R180: a film record with its check that passes its length test and its coded value is accepted. -/
theorem arrival_sealRecord {kind : Byte} {k : FilmKind} {payload : List Byte} (film : filmKind? kind = some k)
    (length : lengthOk kind payload = true) (coded : codedOk kind payload = true) :
    arrival (sealRecord kind payload) = .accepted (.film (parseFilm k payload)) := by
  have passes : (checkHolds (sealRecord kind payload) && lengthOk kind payload && codedOk kind payload) = true := by
    rw [checkHolds_sealRecord, length, coded]; rfl
  unfold arrival
  simp only [show (sealRecord kind payload).kind = kind from rfl,
    show (sealRecord kind payload).payload = payload from rfl, passes, if_true, film]

theorem filmKind?_header : filmKind? 1 = some .frameHeader := rfl
theorem filmKind?_line : filmKind? 2 = some .line := rfl
theorem filmKind?_frameEnd : filmKind? 3 = some .frameEnd := rfl
theorem filmKind?_target : filmKind? 4 = some .target := rfl

/-- R179: the two reserved bits of an extent are not read. -/
theorem extent_reserved {top n : Nat} (h : n ≤ 16383) : extent (16384 * top + n) = n := by unfold extent; omega

theorem arrival_header {roll ordinal ps db wf hf top bottom : Nat} (hroll : roll ≤ 65535) (hordinal : ordinal ≤ 65535)
    (hps : ps ≤ 255) (hdb : db ≤ 255) (hwf : wf ≤ 16383) (hhf : hf ≤ 16383) (htop : top ≤ 3) (hbottom : bottom ≤ 3) :
    arrival (sealRecord 1 (be16 roll ++ be16 ordinal ++ [byteOf ps, byteOf db] ++ be16 (16384 * top + wf)
        ++ be16 (16384 * bottom + hf)))
      = .accepted (.film (.header { roll := roll, ordinal := ordinal, ps := ps, db := db, wf := wf, hf := hf })) := by
  rw [arrival_sealRecord filmKind?_header rfl rfl, parseFilm,
    nat16_of_bytes (i := 0) (n := roll) rfl rfl hroll, nat16_of_bytes (i := 2) (n := ordinal) rfl rfl hordinal,
    nat8_of_byte (i := 4) (n := ps) rfl hps, nat8_of_byte (i := 5) (n := db) rfl hdb,
    nat16_of_bytes (i := 6) (n := 16384 * top + wf) rfl rfl (by omega),
    nat16_of_bytes (i := 8) (n := 16384 * bottom + hf) rfl rfl (by omega), extent_reserved hwf, extent_reserved hhf]

theorem arrival_line {n : Nat} {samples : List Byte} (hn : n ≤ 65535) (hs : samples.length ≤ 65531) :
    arrival (sealRecord 2 (be16 n ++ be16 samples.length ++ samples)) = .accepted (.film (.line n samples)) := by
  have number : nat16 (be16 n ++ be16 samples.length ++ samples) 0 = n := nat16_of_bytes rfl rfl hn
  have count : nat16 (be16 n ++ be16 samples.length ++ samples) 2 = samples.length := nat16_of_bytes rfl rfl (by omega)
  have length : lengthOk 2 (be16 n ++ be16 samples.length ++ samples) = true := by
    have parts : (be16 n ++ be16 samples.length ++ samples).length = 4 + samples.length := List.length_append
    simp only [lengthOk, filmKind?_line, count, parts, BEq.rfl]
  rw [arrival_sealRecord filmKind?_line length rfl, parseFilm, number]
  rfl

theorem arrival_frameEnd {n : Nat} (hn : n ≤ 65535) :
    arrival (sealRecord 3 (be16 n)) = .accepted (.film (.frameEnd n)) := by
  rw [arrival_sealRecord filmKind?_frameEnd rfl rfl, parseFilm, nat16_of_bytes (i := 0) (n := n) rfl rfl hn]

theorem arrival_target {k : TargetKind} {code : Byte} (reserved : Byte) {roll ordinal : Nat}
    (hk : targetKind? code = some k) (hroll : roll ≤ 65535) (hordinal : ordinal ≤ 65535) :
    arrival (sealRecord 4 (be16 roll ++ be16 ordinal ++ [code, reserved]))
      = .accepted (.film (.target { kind := k, roll := roll, ordinal := ordinal })) := by
  have kindRead : targetKind? (byteAt (be16 roll ++ be16 ordinal ++ [code, reserved]) 4) = some k := hk
  have coded : codedOk 4 (be16 roll ++ be16 ordinal ++ [code, reserved]) = true := by
    simp only [codedOk, filmKind?_target, kindRead, Option.isSome_some]
  rw [arrival_sealRecord filmKind?_target rfl coded, parseFilm, kindRead,
    nat16_of_bytes (i := 0) (n := roll) rfl rfl hroll, nat16_of_bytes (i := 2) (n := ordinal) rfl rfl hordinal]
  rfl

/-- Settles O21: each layout by the lemma of its kind. -/
theorem layoutsReadBack : Obligations.LayoutsReadBack := by
  refine ⟨rfl, ?_, ?_, ?_, fun _ _ => arrival_line, fun _ => arrival_frameEnd, ?_⟩
  · intro e roll first count firstSheet sheetCount cls rf length number revision sheets
    have entry := parseIndexEntry_indexBytes roll first count firstSheet sheetCount cls rf length number revision sheets
    have valid : flag? (byteAt (indexBytes (some e)) 0) = some true := rfl
    simp only [parseIndexContent, valid, entry, Option.map_some]
  · intro c rc assumedRf tone level copies retries depth
    exact parseClassContent_classBytes rc assumedRf tone level copies retries depth
  · intro roll ordinal ps db wf hf top bottom
    exact arrival_header
  · intro k code reserved roll ordinal
    exact arrival_target reserved

end Sys2Proof.Machine
end

section
/-! SUPPORT. The set-up of a frame and what follows it (R53, R59, R61, R62, R82 to R84, R94 to R97): the notices it
raises, the effects that a slot or a reservation at hand sets off, and the waits that all else that follows leaves. -/

namespace Sys2Proof.Machine

-- Checked one after another, as the tests are, to hold the memory and the threads down.
set_option Elab.async false

/-! ### Notices alone (R172) -/

/-- From `s` to `t` the notices `ns` have been raised, in this order as far as there is room, and nothing
else of the blocks has changed but the sticky NOTICES_LOST. -/
structure RaisesOnly (ns : List Notice) (s t : State) : Prop where
  dm      : t.dm = s.dm
  rs      : t.rs = s.rs
  sc      : t.sc = s.sc
  sau     : t.sau = s.sau
  cs      : t.cs = s.cs
  cli     : t.cli = s.cli
  body    : t.mu.body = s.mu.body
  fli     : t.fli = { s.fli with notices := t.fli.notices }
  notices : s.fli.notices.length + ns.length ≤ Config.noticePlaces → t.fli.notices = s.fli.notices ++ ns

theorem RaisesOnly.refl (s : State) : RaisesOnly [] s s where
  dm := rfl
  rs := rfl
  sc := rfl
  sau := rfl
  cs := rfl
  cli := rfl
  body := rfl
  fli := rfl
  notices _ := (List.append_nil _).symm

theorem RaisesOnly.trans {ns ms : List Notice} {s t u : State} (h : RaisesOnly ns s t) (g : RaisesOnly ms t u) :
    RaisesOnly (ns ++ ms) s u where
  dm := g.dm.trans h.dm
  rs := g.rs.trans h.rs
  sc := g.sc.trans h.sc
  sau := g.sau.trans h.sau
  cs := g.cs.trans h.cs
  cli := g.cli.trans h.cli
  body := g.body.trans h.body
  fli := by rw [g.fli, h.fli]
  notices room := by
    rw [List.length_append] at room
    have first := h.notices (by omega)
    rw [g.notices (by rw [first, List.length_append]; omega), first, List.append_assoc]

theorem raisesOnly_raiseNotice (n : Notice) (s : State) : RaisesOnly [n] s (raiseNotice n s) := by
  rcases raiseNotice_cases n s with ⟨_, e⟩ | ⟨full, e⟩ <;> rw [e]
  · exact ⟨rfl, rfl, rfl, rfl, rfl, rfl, rfl, rfl, fun _ => rfl⟩
  · refine ⟨rfl, rfl, rfl, rfl, rfl, rfl, rfl, rfl, fun room => ?_⟩
    rw [List.length_singleton] at room
    omega

/-- The classes and tone tables in force are not the sticky flags: what only raises notices leaves them. -/
theorem RaisesOnly.classAt {ns : List Notice} {s t : State} (h : RaisesOnly ns s t) (n : Nat) :
    classAt t.mu n = classAt s.mu n := by
  show Machine.classAt t.mu.body n = Machine.classAt s.mu.body n
  rw [h.body]

theorem RaisesOnly.tones {ns : List Notice} {s t : State} (h : RaisesOnly ns s t) : t.mu.tones = s.mu.tones := by
  show t.mu.body.tones = s.mu.body.tones
  rw [h.body]

theorem RaisesOnly.purgeTag {ns : List Notice} {s t : State} (h : RaisesOnly ns s t) :
    t.mu.purgeTag = s.mu.purgeTag := by
  show t.mu.body.purgeTag = s.mu.body.purgeTag
  rw [h.body]

theorem RaisesOnly.entryFree {ns : List Notice} {s t : State} (h : RaisesOnly ns s t) : entryFree t = entryFree s := by
  rw [Machine.entryFree, h.cs]; rfl

theorem RaisesOnly.cardSlot {ns : List Notice} {s t : State} (h : RaisesOnly ns s t) : cardSlot t = cardSlot s := by
  unfold Machine.cardSlot
  rw [h.cli]

theorem RaisesOnly.markerReady {ns : List Notice} {s t : State} (h : RaisesOnly ns s t) :
    markerReady t = markerReady s := by
  unfold Machine.markerReady
  rw [h.cs, h.cli, h.sc]

/-- R82 to R84: the notice of a change of the density monitor's state, none with the enable off. -/
def densityNotices (dm : Dm) (h : Header) (m : Option Matched) : List Notice :=
  if dm.enable = true ∧ dm.state = .normal ∧ h.db < dm.enter then [headerNotice .densityWarn h m h.db]
  else if dm.enable = true ∧ dm.state = .thin ∧ dm.leave < h.db then [headerNotice .densityClear h m h.db]
  else []

/-- R37: the notice of a scan pitch out of 20..200. -/
def clampNotices (h : Header) (m : Option Matched) : List Notice :=
  if h.ps < 20 ∨ 200 < h.ps then [headerNotice .paramClamped h m h.ps] else []

theorem densityNotices_length (dm : Dm) (h : Header) (m : Option Matched) : (densityNotices dm h m).length ≤ 1 := by
  unfold densityNotices
  split
  · exact Nat.le_refl 1
  · split <;> simp

theorem clampNotices_length (h : Header) (m : Option Matched) : (clampNotices h m).length ≤ 1 := by
  unfold clampNotices
  split <;> simp

/-- R82 to R84: the evaluation, by the state and the limit that the density meets (Table 5-2). -/
theorem evaluateHeader_raisesOnly (h : Header) (m : Option Matched) (s : State) :
    RaisesOnly (densityNotices s.dm h m) { s with dm := s.dm.evaluate h } (evaluateHeader h m s) := by
  unfold evaluateHeader densityNotices nextDensity
  cases state : s.dm.state with
  | normal =>
    by_cases low : h.db < s.dm.enter
    · by_cases on : s.dm.enable = true
      · simpa [low, on, densityNotice] using raisesOnly_raiseNotice ..
      · simpa [low, on, densityNotice] using .refl _
    · simpa [low, densityNotice] using .refl _
  | thin =>
    by_cases high : s.dm.leave < h.db
    · by_cases on : s.dm.enable = true
      · simpa [high, on, densityNotice] using raisesOnly_raiseNotice ..
      · simpa [high, on, densityNotice] using .refl _
    · simpa [high, densityNotice] using .refl _

/-- R37: the geometry's clamp flag is set exactly for a pitch out of 20..200. -/
theorem frameGeometry_clamped (c : ClassEntry) (pr rf : Nat) (h : Header) :
    (frameGeometry c pr rf h).clamped = decide (h.ps < 20 ∨ 200 < h.ps) := by
  show (clampPitch h.ps != h.ps) = _
  rw [Bool.eq_iff_iff, bne_iff_ne, decide_eq_true_iff]
  unfold clampPitch
  split
  · omega
  · split <;> omega

theorem noticeClamped_raisesOnly (c : ClassEntry) (pr rf : Nat) (h : Header) (m : Option Matched) (s : State) :
    RaisesOnly (clampNotices h m) s (noticeClamped (frameGeometry c pr rf h) h m s) := by
  unfold noticeClamped clampNotices
  rw [frameGeometry_clamped]
  by_cases outside : h.ps < 20 ∨ 200 < h.ps
  · rw [if_pos outside, if_pos (decide_eq_true outside)]
    exact raisesOnly_raiseNotice ..
  · rw [if_neg outside, if_neg (by simpa using outside)]
    exact .refl s

/-! ### The set-up (R59) -/

theorem firstWait_eq (f : FrameCtx) :
    firstWait f = if f.dest = .passThrough then .waitReservation f else .waitSlot f := by
  unfold firstWait
  cases f.dest <;> rfl

/-- R59, R85: a header that passes the extent, match and floor tests is evaluated and set up. -/
theorem takeHeader_passes {s : State} {h : Header} {m : Option Matched} {rf : Nat} (hw : h.wf ≠ 0) (hh : h.hf ≠ 0)
    (found : (∃ p x, classify s.mu h = .indexed p x ∧ m = some x ∧ rf = x.rf)
      ∨ (classify s.mu h = .unindexed rf ∧ m = none))
    (dense : s.dm.floor ≤ h.db) : takeHeader h s = setUp h m rf (evaluateHeader h m s) := by
  have floor : (evaluateHeader h m s).dm.floor = s.dm.floor := by rw [(evaluateHeader_raisesOnly h m s).dm]; rfl
  have passes : floorTest h m rf (evaluateHeader h m s) = setUp h m rf (evaluateHeader h m s) := by
    unfold floorTest
    rw [if_neg (by rw [floor]; omega)]
  unfold takeHeader
  rw [if_neg (by rintro (e | e) <;> contradiction)]
  rcases found with ⟨p, x, e, rfl, rfl⟩ | ⟨e, rfl⟩ <;> rw [e] <;> exact passes

/-- What a set-up changes beside the notices: the monitor, the RS, and the SC's flag to ask for a release. -/
def setUpEffect (h : Header) (f : FrameCtx) (g : Geometry) (tone : List Byte) (s : State) : State :=
  { s with
    dm := s.dm.evaluate h
    rs := { intake := firstWait f, work := .none, tone := some tone, geometry := some g }
    sc := { s.sc with askAgain := true } }

/-- R59, R84: the evaluation and the set-up, with their notices in this order. -/
theorem setUp_raisesOnly {h : Header} {m : Option Matched} {rf : Nat} {s : State} {c : ClassEntry} {g : Geometry}
    (hc : c = classAt s.mu ((m.map Matched.cls).getD 0)) (hg : g = frameGeometry c s.cli.pr rf h) :
    RaisesOnly (densityNotices s.dm h m ++ clampNotices h m)
      (setUpEffect h (newFrame h m (destinationOf m s.sau) (frameFlags (nextDensity s.dm h.db == .thin) g) c) g
        (s.mu.tones.getD c.tone []) s)
      (setUp h m rf (evaluateHeader h m s)) := by
  have evaluated := evaluateHeader_raisesOnly h m s
  have class_eq : classAt (evaluateHeader h m s).mu ((m.map Matched.cls).getD 0) = c :=
    (evaluated.classAt _).trans hc.symm
  have raised := evaluated.trans (noticeClamped_raisesOnly c s.cli.pr rf h m (evaluateHeader h m s))
  unfold setUp
  rw [class_eq, evaluated.tones, evaluated.cli, evaluated.sau, evaluated.dm]
  subst hg
  exact ⟨raised.dm, rfl, congrArg (fun sc : Sc => { sc with askAgain := true }) raised.sc, raised.sau,
    raised.cs, raised.cli, raised.body, raised.fli, raised.notices⟩

/-! ### The next effect after a wait began (R61, R62, R94 to R97) -/

/-- R118: nothing of the backlog can be placed now. -/
theorem not_placeable {s : State} (h : s.sau.backlog = [] ∨ entryFree s = false) :
    ¬ (s.sau.backlog ≠ [] ∧ entryFree s = true) := by
  rintro ⟨waits, free⟩
  rcases h with empty | full
  · exact waits empty
  · rw [full] at free; cases free

theorem settleStep_placeHead {s : State} (waits : s.sau.backlog ≠ []) (free : entryFree s = true) :
    settleStep s = some (placeHead s) := by
  unfold settleStep
  rw [if_pos ⟨waits, free⟩]

theorem settleStep_grantReservation {s : State} {f : FrameCtx} (intake : s.rs.intake = .waitReservation f)
    (empty : s.sau.backlog = []) (free : entryFree s = true) : settleStep s = some (grantReservation f s) := by
  have grant : reservationGrant s = some f := by
    simp only [reservationGrant, reservationWaiter, intake, empty, free, and_self, if_true]
  unfold settleStep
  rw [if_neg (not_placeable (.inl empty)), grant]

theorem reservationGrant_waitSlot {s : State} {f : FrameCtx} (intake : s.rs.intake = .waitSlot f) :
    reservationGrant s = none := by
  simp only [reservationGrant, reservationWaiter, intake]

theorem slotAsker_waitSlot {s : State} {f : FrameCtx} (intake : s.rs.intake = .waitSlot f) :
    slotAsker s = if s.mu.purgeTag = none then some f else none := by
  simp only [slotAsker, slotWaiter, intake, Option.isNone_iff_eq_none]

theorem settleStep_grantSlot {s : State} {f : FrameCtx} {n : Nat} (intake : s.rs.intake = .waitSlot f)
    (placed : s.sau.backlog = [] ∨ entryFree s = false) (purge : s.mu.purgeTag = none)
    (chosen : chooseSlot s.sc (cardSlot s) = some n) : settleStep s = some (grantSlot f n s) := by
  have grant : slotGrant s = some (f, n) := by
    simp only [slotGrant, slotAsker_waitSlot intake, purge, if_true, chosen, Option.map_some]
  unfold settleStep
  rw [if_neg (not_placeable placed), reservationGrant_waitSlot intake, grant]

theorem settleStep_askRelease {s : State} {f : FrameCtx} (intake : s.rs.intake = .waitSlot f)
    (placed : s.sau.backlog = [] ∨ entryFree s = false) (purge : s.mu.purgeTag = none)
    (full : chooseSlot s.sc (cardSlot s) = none) (ask : s.sc.askAgain = true) (path : cardPathHolds s.sc = false)
    (marker : markerReady s = false) : settleStep s = some (askRelease f s) := by
  have asker : slotAsker s = some f := by rw [slotAsker_waitSlot intake, if_pos purge]
  have refused : slotGrant s = none := by simp only [slotGrant, asker, full, Option.map_none]
  have pressed : pressureFor s = some f := by
    simp only [pressureFor, asker, ask, path, Bool.not_false, Bool.and_self, if_true]
  unfold settleStep settleCards
  rw [if_neg (not_placeable placed), reservationGrant_waitSlot intake, refused, marker, pressed]

/-- R53, R62, R94: the whole of a grant, with the fields the SC enters from the frame and its geometry. -/
theorem grantSlot_eq {f : FrameCtx} {g : Geometry} {s : State} (n : Nat) (geometry : s.rs.geometry = some g) :
    grantSlot f n s = { s with
      rs := { s.rs with intake := .receiving { f with slot := some n } }
      sc := { s.sc with slots := s.sc.slots.set n (.held .filling
        { owner := .openFrame, roll := f.roll, ordinal := f.ordinal, depth := f.depth, re := g.re
          flags := f.flags }) } } := by
  unfold grantSlot grantedChip setSlot
  rw [geometry]
  rfl

/-- A granted slot is neither FILED nor QUEUED. -/
theorem grantSlot_inState (f : FrameCtx) (n : Nat) (s : State) {k : ChipState} (hk : k ≠ .filling) :
    (slotAt (grantSlot f n s).sc n).inState k = false := by
  show ((s.sc.slots.set n (.held .filling (grantedChip f s.rs.geometry))).getD n .offline).inState k = false
  by_cases inside : n < s.sc.slots.length
  · rw [getD_inside (by simpa using inside), List.getElem_set_self]
    simpa [Slot.inState] using hk.symm
  · rw [getD_outside (by simpa using inside)]
    rfl

/-- R62: once the effects have reached the grant of a slot, the intake and that slot stand until the command's end. -/
theorem finish_grantSlot {f : FrameCtx} {n k : Nat} {s r : State} (mode : s.sc.mode = .active)
    (reached : r = { settleLoop k (grantSlot f n s) with sc := storeAfter (settleLoop k (grantSlot f n s)).sc }) :
    EndOfEvent (grantSlot f n s) (finish r) ∧ (finish r).rs = (grantSlot f n s).rs
      ∧ slotAt (finish r).sc n = slotAt (grantSlot f n s).sc n :=
  ⟨finish_reached reached,
    finish_reached_slot reached rfl mode (grantSlot_inState f n s nofun) (grantSlot_inState f n s nofun)⟩

/-- R61, R62: the grant of a reservation, and after it that of a slot. -/
theorem finish_grantReservation {s : State} {f : FrameCtx} (intake : s.rs.intake = .waitReservation f)
    (empty : s.sau.backlog = []) (free : entryFree s = true) :
    settleStep s = some (grantReservation f s) ∧ EndOfEvent (grantReservation f s) (finish (settle s))
      ∧ ∀ n, s.sc.mode = .active → s.mu.purgeTag = none → chooseSlot s.sc (cardSlot s) = some n →
        settleStep (grantReservation f s) = some (grantSlot f n (grantReservation f s))
          ∧ EndOfEvent (grantSlot f n (grantReservation f s)) (finish (settle s))
          ∧ (finish (settle s)).rs = (grantSlot f n (grantReservation f s)).rs
          ∧ slotAt (finish (settle s)).sc n = slotAt (grantSlot f n (grantReservation f s)).sc n := by
  have first := settleStep_grantReservation intake empty free
  refine ⟨first, finish_settle_first first, fun n mode purge chosen => ?_⟩
  have second : settleStep (grantReservation f s) = some (grantSlot f n (grantReservation f s)) :=
    settleStep_grantSlot rfl (.inl empty) purge
      ((chooseSlot_eq (a := (grantReservation f s).sc) (b := s.sc) rfl rfl (cardSlot s)).trans chosen)
  exact ⟨second, finish_grantSlot (s := grantReservation f s) mode (settle_second first second).choose_spec⟩

/-! ### The FREE slots (R94, R95) -/

/-- All that R94 looks at to find the candidate banks: which slots are FREE, and the banks enabled. -/
def freeView (sc : Sc) : List Bool × Nat := (sc.slots.map Slot.isFree, sc.banks)

theorem candidateBanks_eq {a b : Sc} (h : freeView a = freeView b) : candidateBanks a = candidateBanks b := by
  obtain ⟨slots, banks⟩ := Prod.mk.inj h
  have count (sc : Sc) (x : Nat) : freeInBank sc x
      = (((sc.slots.map Slot.isFree).drop (Config.slotsPerBank * x)).take Config.slotsPerBank).countP id := by
    rw [← List.map_drop, ← List.map_take, List.countP_map]
    rfl
  have same : freeInBank a = freeInBank b := funext fun x => by rw [count, count, slots]
  unfold candidateBanks
  rw [same, banks]

theorem bestBank_eq_none {sc : Sc} {l : List Nat} : bestBank sc l = none ↔ l = [] := by
  cases l with
  | nil => exact iff_of_true rfl rfl
  | cons b bs =>
    refine iff_of_false ?_ (List.cons_ne_nil b bs)
    unfold bestBank
    split
    · nofun
    · split <;> nofun

theorem excludeBank_eq_nil {card : Option Nat} {cands : List Nat} : excludeBank card cands = [] ↔ cands = [] := by
  cases card with
  | none => rfl
  | some b =>
    unfold excludeBank
    simp only
    split
    · rfl
    · refine iff_of_false ‹_› ?_
      rintro rfl
      contradiction

/-- R95: no slot can be granted exactly when no enabled bank holds a FREE one, whatever card is in flight. -/
theorem chooseSlot_eq_none {sc : Sc} {card : Option Nat} : chooseSlot sc card = none ↔ candidateBanks sc = [] := by
  rw [← excludeBank_eq_nil (card := card.map bankOf), ← bestBank_eq_none (sc := sc)]
  unfold chooseSlot
  split
  · exact iff_of_true rfl ‹_›
  · rename_i b chosen
    exact iff_of_false nofun (by rw [chosen]; nofun)

@[simp] theorem moveSlot_freeView (n : Nat) (a b : ChipState) (change : Chip → Chip) (sc : Sc) :
    freeView (moveSlot n a b change sc) = freeView sc := by
  unfold moveSlot
  split
  · rename_i st c held
    split
    · have inside : n < sc.slots.length := by
        refine Nat.lt_of_not_le fun outside => ?_
        rw [slotAt, getD_outside outside] at held
        cases held
      rw [slotAt, getD_inside inside] at held
      refine Prod.ext ?_ rfl
      show (sc.slots.set n (.held b (change c))).map Slot.isFree = sc.slots.map Slot.isFree
      have busy : (Slot.held b (change c)).isFree = (sc.slots.map Slot.isFree)[n]'(by simpa using inside) := by
        rw [List.getElem_map, held]; rfl
      rw [List.map_set, busy, List.set_getElem_self]
    · rfl
  all_goals rfl

@[simp] theorem queueSlots_freeView (id pos : Nat) (cards : List CardPos) (sc : Sc) :
    freeView (queueSlots id pos cards sc) = freeView sc := by
  induction cards generalizing pos sc with
  | nil => rfl
  | cons c cards ih => rw [queueSlots, ih, moveSlot_freeView]

@[simp] theorem openSlot_freeView (k : CardKind) (sc : Sc) : freeView (openSlot k sc) = freeView sc := by
  unfold openSlot
  split
  · exact moveSlot_freeView ..
  all_goals rfl

/-! ### What leaves a waiting frame waiting -/

/-- From `s` to `t` nothing of the RS has changed, and no slot has become FREE or ceased to be. -/
structure SameWait (s t : State) : Prop where
  rs   : t.rs = s.rs
  free : freeView t.sc = freeView s.sc

theorem SameWait.refl (s : State) : SameWait s s := ⟨rfl, rfl⟩

theorem SameWait.trans {s t u : State} (h : SameWait s t) (g : SameWait t u) : SameWait s u :=
  ⟨g.rs.trans h.rs, g.free.trans h.free⟩

theorem sameWait_closeSet (n : Nat) (short : Bool) (s : State) : SameWait s (closeSet n short s) := by
  unfold closeSet
  simp only
  split <;> exact ⟨rfl, rfl⟩

theorem sameWait_raiseNotice (n : Notice) (s : State) : SameWait s (raiseNotice n s) :=
  ⟨raiseNotice_rs n s, by rw [raiseNotice_sc]⟩

theorem sameWait_placeJob (j : Job) (s : State) : SameWait s (placeJob j s) := ⟨rfl, queueSlots_freeView ..⟩

theorem sameWait_placeSpill (n opening : Nat) (s : State) : SameWait s (placeSpill n opening s) := by
  unfold placeSpill
  simp only
  split
  · exact (sameWait_placeJob ..).trans ⟨rfl, rfl⟩
  · exact .refl s

/-- R127: the marker ends the wait of a BATCH END alone. -/
theorem sameWait_placeMarker {s : State} (h : ∀ t, s.rs.intake ≠ .waitTarget t) : SameWait s (placeMarker s) := by
  unfold placeMarker
  simp only
  split
  · rename_i t waits
    exact absurd waits (h t)
  all_goals exact ⟨rfl, rfl⟩

theorem sameWait_placeHead {s : State} (h : ∀ t, s.rs.intake ≠ .waitTarget t) : SameWait s (placeHead s) := by
  unfold placeHead
  split
  · exact .refl s
  · rename_i x xs _
    refine SameWait.trans (t := { s with sau := { s.sau with backlog := xs } }) ⟨rfl, rfl⟩ ?_
    cases x with
    | set n => exact (sameWait_placeJob ..).trans ⟨rfl, rfl⟩
    | group => exact (sameWait_placeJob ..).trans ⟨rfl, rfl⟩
    | spill n opening => exact sameWait_placeSpill ..
    | marker => exact sameWait_placeMarker h

theorem sameWait_askRelease (f : FrameCtx) (s : State) : SameWait s (askRelease f s) := by
  refine SameWait.trans (t := { s with sc := { s.sc with askAgain := false } }) ⟨rfl, rfl⟩ ?_
  unfold askRelease pressureRelease
  split
  · exact (sameWait_closeSet ..).trans (sameWait_raiseNotice ..)
  · split
    · exact ⟨rfl, rfl⟩
    · unfold requestSpill
      split
      · exact .refl _
      · simp only
        split <;> exact ⟨rfl, rfl⟩

theorem sameWait_removeMarker (s : State) : SameWait s (removeMarker s) := by
  refine SameWait.trans ?_ (sameWait_raiseNotice ..)
  exact ⟨rfl, rfl⟩

theorem sameWait_markerOrRelease (f : FrameCtx) (s : State) : SameWait s (markerOrRelease f s) := by
  refine SameWait.trans (t := { s with freeCount := s.freeCount + 1 }) ⟨rfl, rfl⟩ ?_
  show SameWait _ (if Config.markerFirst s.freeCount then _ else _)
  split
  · exact sameWait_removeMarker ..
  · exact sameWait_askRelease ..

theorem sameWait_nextStep (c : Card) (slot : Nat) (s : State) : SameWait s (nextStep c slot s) := by
  unfold nextStep
  split
  · exact ⟨rfl, rfl⟩
  · split <;> exact ⟨rfl, rfl⟩

theorem sameWait_pumpChip (c : Card) (slot : Nat) (s : State) : SameWait s (pumpChip c slot s) := by
  unfold pumpChip
  split
  · exact SameWait.trans (t := sendLine c slot _ s) ⟨rfl, rfl⟩ (sameWait_nextStep ..)
  · exact sameWait_nextStep ..

theorem sameWait_pump (s : State) : SameWait s (pump s) := by
  unfold pump
  split
  · exact .refl s
  · split
    · exact .refl s
    · exact .refl s
    · split
      · exact sameWait_pumpChip ..
      all_goals exact ⟨rfl, rfl⟩

theorem sameWait_openCard (k : CardKind) (attempt : Nat) (s : State) : SameWait s (openCard k attempt s) := by
  unfold openCard
  refine SameWait.trans ⟨?_, ?_⟩ (sameWait_pump _)
  · rfl
  · exact openSlot_freeView k s.sc

/-- R138: what a boundary hands over is opened with the queue's entries as they stand. -/
theorem boundaryCard_opened {s t : State}
    (h : (boundaryCard s).map (fun c => openCard c.2.1 c.2.2 c.1) = some t) :
    boundary s = true ∧ ∃ cs k a, cs.queue = s.cs.queue ∧ t = openCard k a { s with cs := cs } := by
  obtain ⟨⟨u, k, a⟩, chosen, rfl⟩ := Option.map_eq_some_iff.1 h
  unfold boundaryCard at chosen
  split at chosen
  · have queue := chooseCard_queue chosen
    obtain ⟨cs, rfl⟩ := chooseCard_cs chosen
    exact ⟨‹_›, cs, k, a, queue, rfl⟩
  · cases chosen

theorem sameWait_settleCards {s t : State} (h : settleCards s = some t) : SameWait s t := by
  unfold settleCards at h
  split at h
  · cases h; exact sameWait_markerOrRelease ..
  · cases h; exact sameWait_removeMarker s
  · cases h; exact sameWait_askRelease ..
  · obtain ⟨_, cs, k, a, _, rfl⟩ := boundaryCard_opened h
    exact SameWait.trans (t := { s with cs := cs }) ⟨rfl, rfl⟩ (sameWait_openCard ..)

/-- With the store ACTIVE only the effects that follow change the intake at the command's end (R109). -/
theorem finish_settle_rs {s : State} (mode : s.sc.mode = .active) :
    (finish (settle s)).rs = (settleLoop settleFuel s).rs := by
  unfold finish
  rw [channel_rs, meetHeader, if_neg (by rw [settle_mode, mode]; rintro ⟨_, _⟩; contradiction)]
  rfl

/-! ### A wait for a slot that lasts (R95, R97; log entry 11) -/

/-- The frame `f` waits for a slot, and none can be granted: no slot is FREE, or a STORE PURGE waits. -/
structure SlotRefused (f : FrameCtx) (s : State) : Prop where
  intake  : s.rs.intake = .waitSlot f
  refused : candidateBanks s.sc = [] ∨ s.mu.purgeTag ≠ none

theorem SlotRefused.slotGrant {f : FrameCtx} {s : State} (h : SlotRefused f s) : slotGrant s = none := by
  unfold Machine.slotGrant
  rw [slotAsker_waitSlot h.intake]
  rcases h.refused with full | purge
  · split
    · rw [chooseSlot_eq_none.2 full]; rfl
    · rfl
  · rw [if_neg purge]

theorem SlotRefused.next {f : FrameCtx} {s t : State} (h : SlotRefused f s) (step : settleStep s = some t) :
    SlotRefused f t := by
  have purge : t.mu.purgeTag = s.mu.purgeTag := by
    show t.mu.body.purgeTag = s.mu.body.purgeTag
    rw [(sameLink_settleStep step).mu]
  have same : SameWait s t := by
    rcases settleStep_cases step with ⟨_, _, rfl⟩ | ⟨f', granted, _⟩ | ⟨f', n, granted, _⟩ | cards
    · exact sameWait_placeHead (by rw [h.intake]; nofun)
    · rw [reservationGrant_waitSlot h.intake] at granted; cases granted
    · rw [h.slotGrant] at granted; cases granted
    · exact sameWait_settleCards cards
  refine ⟨by rw [same.rs, h.intake], ?_⟩
  rw [candidateBanks_eq same.free, purge]
  exact h.refused

/-- R95: the frame is still WAITING for its slot at the command's end. -/
theorem SlotRefused.waits {f : FrameCtx} {s : State} (h : SlotRefused f s) (mode : s.sc.mode = .active) :
    (finish (settle s)).rs.intake = .waitSlot f := by
  rw [finish_settle_rs mode]
  exact (settleLoop_keeps (P := SlotRefused f) (fun _ _ => SlotRefused.next) settleFuel h).intake

/-! ### A wait for a reservation that lasts (R61, R136) -/

/-- The frame `f` waits for a reservation, no entry is free, and no marker can be removed. -/
structure ReservationRefused (f : FrameCtx) (s : State) : Prop where
  intake : s.rs.intake = .waitReservation f
  full   : entryFree s = false
  marker : markerReady s = false

theorem pump_cs (s : State) : (pump s).cs = s.cs := by
  unfold pump pumpChip nextStep
  repeat' split
  all_goals rfl

theorem openCard_queue (k : CardKind) (attempt : Nat) (s : State) : (openCard k attempt s).cs.queue = s.cs.queue := by
  unfold openCard
  rw [pump_cs]
  rfl

/-- R138, R143: with no entry free the only effect that can follow is a card, which leaves the queue as it stands. -/
theorem ReservationRefused.next {f : FrameCtx} {s t : State} (h : ReservationRefused f s)
    (step : settleStep s = some t) : ReservationRefused f t := by
  have asker : slotAsker s = none := by
    simp only [slotAsker, slotWaiter, h.intake, ite_self]
  rcases settleStep_cases step with ⟨_, free, _⟩ | ⟨f', granted, _⟩ | ⟨f', n, granted, _⟩ | cards
  · rw [h.full] at free; cases free
  · simp [reservationGrant, reservationWaiter, h.intake, h.full] at granted
  · simp [slotGrant, asker] at granted
  · have same := sameWait_settleCards cards
    have pressed : pressureFor s = none := by simp only [pressureFor, asker]
    unfold settleCards at cards
    rw [h.marker, pressed] at cards
    obtain ⟨ready, cs, k, a, queue, rfl⟩ := boundaryCard_opened cards
    have queue : (openCard k a { s with cs := cs }).cs.queue = s.cs.queue := (openCard_queue ..).trans queue
    refine ⟨by rw [same.rs, h.intake], ?_, ?_⟩
    · rw [entryFree, queue]; exact h.full
    · have noMarker : (s.cs.queue.head? == some .marker) = false := by
        have refused := h.marker
        simp only [boundary, Bool.and_eq_true] at ready
        obtain ⟨⟨idle, _⟩, awake⟩ := ready
        rwa [markerReady, idle, awake, Bool.and_true, Bool.and_true] at refused
      rw [markerReady, queue, noMarker]
      rfl

/-- R61: the frame is still WAITING for its reservation at the command's end. -/
theorem ReservationRefused.waits {f : FrameCtx} {s : State} (h : ReservationRefused f s) (mode : s.sc.mode = .active) :
    (finish (settle s)).rs.intake = .waitReservation f := by
  rw [finish_settle_rs mode]
  exact (settleLoop_keeps (P := ReservationRefused f) (fun _ _ => ReservationRefused.next) settleFuel h).intake

/-! ### HeaderSetUp -/

/-- The frame `f` with the geometry `g` has been set up from `s` to `v`, and asks; all that the answer rests on beside the
intake is in `v` as in `s`. -/
structure Asking (f : FrameCtx) (g : Geometry) (s v : State) : Prop where
  intake   : v.rs.intake = firstWait f
  geometry : v.rs.geometry = some g
  sc       : v.sc = { s.sc with askAgain := true }
  backlog  : v.sau.backlog = s.sau.backlog
  free     : entryFree v = entryFree s
  marker   : markerReady v = markerReady s
  purge    : v.mu.purgeTag = s.mu.purgeTag
  choice   : chooseSlot v.sc (cardSlot v) = chooseSlot s.sc (cardSlot s)

theorem RaisesOnly.asking {ns : List Notice} {h : Header} {f : FrameCtx} {g : Geometry} {tone : List Byte} {s v : State}
    (r : RaisesOnly ns (setUpEffect h f g tone (taken s)) v) : Asking f g s v where
  intake := by rw [r.rs]; rfl
  geometry := by rw [r.rs]; rfl
  sc := r.sc
  backlog := congrArg Sau.backlog r.sau
  free := r.entryFree
  marker := r.markerReady
  purge := r.purgeTag
  choice := by
    rw [r.cardSlot, r.sc]
    exact chooseSlot_eq (a := { s.sc with askAgain := true }) (b := s.sc) rfl rfl (Machine.cardSlot s)

section Asking
variable {f : FrameCtx} {g : Geometry} {s v : State}

theorem Asking.slots (a : Asking f g s v) : v.sc.slots = s.sc.slots := by rw [a.sc]

theorem Asking.mode (a : Asking f g s v) : v.sc.mode = s.sc.mode := by rw [a.sc]

theorem Asking.slotWait (a : Asking f g s v) (dest : f.dest ≠ .passThrough) : v.rs.intake = .waitSlot f := by
  rw [a.intake, firstWait_eq, if_neg dest]

theorem Asking.reservationWait (a : Asking f g s v) (dest : f.dest = .passThrough) :
    v.rs.intake = .waitReservation f := by
  rw [a.intake, firstWait_eq, if_pos dest]

theorem Asking.placed (a : Asking f g s v) (h : s.sau.backlog = [] ∨ entryFree s = false) :
    v.sau.backlog = [] ∨ entryFree v = false := by
  rwa [a.backlog, a.free]

/-- R95: with no slot to choose, or a STORE PURGE waiting, the wait for a slot lasts. -/
theorem Asking.slotRefused (a : Asking f g s v) (dest : f.dest ≠ .passThrough)
    (h : chooseSlot s.sc (cardSlot s) = none ∨ s.mu.purgeTag ≠ none) : SlotRefused f v :=
  ⟨a.slotWait dest, by rwa [← chooseSlot_eq_none (card := cardSlot v), a.choice, a.purge]⟩

end Asking

/-- R84, R37: with room for two notices, a set-up's notices join the queue in this order. -/
theorem RaisesOnly.setUp_notices {h : Header} {m : Option Matched} {f : FrameCtx} {g : Geometry} {tone : List Byte}
    {s v : State}
    (r : RaisesOnly (densityNotices s.dm h m ++ clampNotices h m) (setUpEffect h f g tone (taken s)) v)
    (room : s.fli.notices.length < 31) :
    v.fli.notices = s.fli.notices ++ densityNotices s.dm h m ++ clampNotices h m := by
  have before : (setUpEffect h f g tone (taken s)).fli.notices = s.fli.notices := takeHead_notices s.fli
  have one := densityNotices_length s.dm h m
  have another := clampNotices_length h m
  rw [r.notices (by rw [before, List.length_append, Config.noticePlaces]; omega), before, List.append_assoc]

/-- R53, R59, R84: the whole effect of a header that passes its tests, `f` being its frame context and `g` its geometry. -/
theorem takeHeader_raisesOnly {s : State} {h : Header} {m : Option Matched} {rf : Nat} {c : ClassEntry} {g : Geometry}
    {f : FrameCtx} (hw : h.wf ≠ 0) (hh : h.hf ≠ 0)
    (found : (∃ p x, classify s.mu h = .indexed p x ∧ m = some x ∧ rf = x.rf)
      ∨ (classify s.mu h = .unindexed rf ∧ m = none))
    (dense : s.dm.floor ≤ h.db) (hc : c = classAt s.mu ((m.map Matched.cls).getD 0))
    (hg : g = frameGeometry c s.cli.pr rf h)
    (hf : f = newFrame h m (destinationOf m s.sau) (frameFlags (nextDensity s.dm h.db == .thin) g) c) :
    RaisesOnly (densityNotices s.dm h m ++ clampNotices h m) (setUpEffect h f g (s.mu.tones.getD c.tone []) s)
      (takeHeader h s) := by
  rw [takeHeader_passes hw hh found dense, hf]
  exact setUp_raisesOnly hc hg

/-- Settles O26: the set-up by `takeHeader_raisesOnly`, the next effect by the lemma of its kind, and the two waits as
those that every effect leaves standing. -/
theorem headerSetUp : Obligations.HeaderSetUp := by
  intro s h m rf head mode noFrame hw hh found dense c g f hc hg hf
  have frame : f = newFrame h m (destinationOf m s.sau) (frameFlags (nextDensity s.dm h.db == .thin) g) c := by
    rw [hf, newFrame, frameFlags, hg, frameGeometry_clamped]
  have raised := takeHeader_raisesOnly (s := taken s) hw hh found dense hc hg frame
  have completes := frameHeader_taken head mode noFrame
  have roll : f.roll = h.roll := by rw [hf]
  have ordinal : f.ordinal = h.ordinal := by rw [hf]
  have depth : f.depth = c.depth := by rw [hf]
  generalize takeHeader h (taken s) = v at raised completes
  have asks : Asking f g s v := raised.asking
  have active : v.sc.mode = .active := asks.mode.trans mode
  refine ⟨v, finish (settle v), completes, finish_settle_setsOff v, firstWait_eq f ▸ raised.rs, raised.sau, raised.cs,
    raised.cli, raised.sc, raised.dm, ?notices, raised.fli, raised.body,
    fun placed => ⟨?granted, ?refused, ?released, ?reserved, ?unreserved⟩, ?placedFirst⟩
  case notices =>
    rintro a b rfl rfl room
    exact raised.setUp_notices room
  case granted =>
    intro n w dest idle chosen hn
    have grant : grantSlot f n v = w := by
      rw [hn, grantSlot_eq n asks.geometry, asks.slots, roll, ordinal, depth]
    have step := settleStep_grantSlot (asks.slotWait dest) (asks.placed placed) (asks.purge.trans idle)
      (asks.choice.trans chosen)
    exact grant ▸ ⟨step, finish_grantSlot active (settle_first step).choose_spec⟩
  case refused =>
    intro dest why
    exact (asks.slotRefused dest why).waits active
  case released =>
    intro w dest idle full path noMarker hn
    have release : askRelease f v = w := by rw [hn, askRelease, asks.sc]
    have step := settleStep_askRelease (asks.slotWait dest) (asks.placed placed) (asks.purge.trans idle)
      (asks.choice.trans full) (by rw [asks.sc]) (by rw [cardPathHolds, asks.slots]; exact path)
      (asks.marker.trans noMarker)
    exact release ▸ ⟨step, finish_settle_first step⟩
  case reserved =>
    intro w dest room hn
    have empty : v.sau.backlog = [] := asks.backlog.trans (placed.resolve_right (by rw [room]; nofun))
    have reserve : grantReservation f v = w := by
      rw [hn, grantReservation, enqueue, raised.cs, asks.sc]
      rfl
    obtain ⟨step, event, next⟩ := finish_grantReservation (asks.reservationWait dest) empty (asks.free.trans room)
    subst reserve
    refine ⟨step, event, fun n x idle chosen hx => ?_⟩
    have grant : grantSlot f n (grantReservation f v) = x := by
      rw [hx, grantSlot_eq (s := grantReservation f v) n asks.geometry, roll, ordinal, depth, ← asks.slots]
      rfl
    exact grant ▸ next n active (asks.purge.trans idle) (asks.choice.trans chosen)
  case unreserved =>
    intro dest full noMarker
    have refused : ReservationRefused f v :=
      ⟨asks.reservationWait dest, asks.free.trans full, asks.marker.trans noMarker⟩
    exact refused.waits active
  case placedFirst =>
    intro waits room
    have step := settleStep_placeHead (asks.backlog ▸ waits) (asks.free.trans room)
    exact ⟨step, finish_settle_first step⟩

end Sys2Proof.Machine
end

section
/-! SUPPORT. The geometry of a frame (R41 to R46, R51, R52): what the scale, the extents and the effective reduction can
be, each said once. The statement O35. -/

namespace Sys2Proof.Machine

-- Checked one after another, as the tests are, to hold the memory and the threads down.
set_option Elab.async false

/-! ### The captured inputs (R37, R39) -/

theorem clampPitch_range (ps : Nat) : 20 ≤ clampPitch ps ∧ clampPitch ps ≤ 200 := by
  unfold clampPitch
  split
  · omega
  · split <;> omega

theorem rotatedExtents_range {wf hf : Nat} (r : Rotation) (hw : 1 ≤ wf ∧ wf ≤ 16383) (hh : 1 ≤ hf ∧ hf ≤ 16383) :
    (1 ≤ rotatedWidth r wf hf ∧ rotatedWidth r wf hf ≤ 16383)
      ∧ (1 ≤ rotatedHeight r wf hf ∧ rotatedHeight r wf hf ≤ 16383) := by
  cases r
  case r0 | r180 => exact ⟨hw, hh⟩
  case r90 | r270 => exact ⟨hh, hw⟩

/-! ### The scale (R41, R42, R44) -/

theorem clampScale_range (s : Nat) : 4096 ≤ clampScale s ∧ clampScale s ≤ 1048576 := by
  unfold clampScale
  split
  · omega
  · split <;> omega

/-- R42: the clamp raises a scale to 4,096 only. -/
theorem clampScale_le {s : Nat} (h : 4096 < clampScale s) : clampScale s ≤ s := by
  unfold clampScale at h ⊢
  by_cases low : s < 4096
  · rw [if_pos low] at h
    omega
  · rw [if_neg low]
    split <;> omega

/-- R43, R44: at a window's candidate scale, or below it, the extent fits the window. -/
theorem chipExtent_le {w s window : Nat} (hw : 1 ≤ w) (h : s ≤ 65536 * window / w) : chipExtent w s ≤ window := by
  have inside : w * s ≤ 65536 * window := Nat.mul_comm s w ▸ (Nat.le_div_iff_mul_le hw).1 h
  unfold chipExtent
  omega

theorem candidate_le_of_lt_chipExtent {w s window : Nat} (h : window < chipExtent w s) :
    65536 * window / w ≤ s := by
  refine Nat.div_le_of_le_mul ?_
  unfold chipExtent at h
  omega

/-- R44: the scale that SHRINK takes puts the image inside the window. -/
theorem fits_shrinkScale {wr hr : Nat} (hw : 1 ≤ wr) (hh : 1 ≤ hr) :
    chipExtent wr (shrinkScale wr hr) ≤ 4096 ∧ chipExtent hr (shrinkScale wr hr) ≤ 2912 :=
  ⟨chipExtent_le hw (Nat.min_le_left ..), chipExtent_le hh (Nat.min_le_right ..)⟩

/-- R44: it is no larger than a scale at which the image does not fit. -/
theorem shrinkScale_le {wr hr s : Nat} (h : fitsWindow (chipExtent wr s) (chipExtent hr s) = false) :
    shrinkScale wr hr ≤ s := by
  rcases (Bool.and_eq_false_iff ..).1 h with wide | high
  · have wide : 4096 < chipExtent wr s := Nat.lt_of_not_le (of_decide_eq_false wide)
    exact Nat.le_trans (Nat.min_le_left ..) (candidate_le_of_lt_chipExtent wide)
  · have high : 2912 < chipExtent hr s := Nat.lt_of_not_le (of_decide_eq_false high)
    exact Nat.le_trans (Nat.min_le_right ..) (candidate_le_of_lt_chipExtent high)

/-- R44, Table 3-1: no extent of at most 16,383 takes it to 4,096. -/
theorem lt_shrinkScale {wr hr : Nat} (hw : 1 ≤ wr ∧ wr ≤ 16383) (hh : 1 ≤ hr ∧ hr ≤ 16383) :
    4096 < shrinkScale wr hr := by
  refine Nat.lt_min.2 ⟨(Nat.le_div_iff_mul_le hw.1).2 ?_, (Nat.le_div_iff_mul_le hh.1).2 ?_⟩ <;> omega

/-! ### The effective reduction (R51) -/

section EffectiveReduction
variable {num s pr : Nat}

/-- R51: the rounded quotient, as a comparison. -/
theorem le_effectiveReduction_iff (hs : 0 < s * pr) (r : Nat) :
    r ≤ effectiveReduction num s pr ↔ r * (s * pr) ≤ num * 65536 + s * pr / 2 := Nat.le_div_iff_mul_le hs

theorem effectiveReduction_lt_iff (hs : 0 < s * pr) (r : Nat) :
    effectiveReduction num s pr < r ↔ num * 65536 + s * pr / 2 < r * (s * pr) := Nat.div_lt_iff_lt_mul hs

/-- R51: a smaller scale gives no smaller reduction. -/
theorem effectiveReduction_antitone {s' : Nat} (hs : 0 < s * pr) (h : s ≤ s') :
    effectiveReduction num s' pr ≤ effectiveReduction num s pr := by
  have grows : s * pr ≤ s' * pr := Nat.mul_le_mul_right pr h
  obtain ⟨d, hd⟩ := Nat.exists_eq_add_of_le grows
  have below := (le_effectiveReduction_iff (num := num) (Nat.lt_of_lt_of_le hs grows) _).1 (Nat.le_refl _)
  rw [le_effectiveReduction_iff hs]
  generalize effectiveReduction num s' pr = r at below ⊢
  rw [hd, Nat.mul_add] at below
  rcases Nat.eq_zero_or_pos r with rfl | pos
  · omega
  · have := Nat.le_mul_of_pos_left d pos
    omega

/-- R41, R51: at the base scale itself the reduction is the class's own, the rounding of the scale being less than half a
step of it. -/
theorem effectiveReduction_baseScale {rc : Nat} (hrc : 0 < rc) (hpr : 0 < pr) (h : rc < baseScale num (rc * pr)) :
    effectiveReduction num (baseScale num (rc * pr)) pr = rc := by
  have den : 0 < rc * pr := Nat.mul_pos hrc hpr
  have low := (Nat.le_div_iff_mul_le den).1 (Nat.le_refl (baseScale num (rc * pr)))
  have high := (Nat.div_lt_iff_lt_mul den).1 (Nat.lt_succ_self (baseScale num (rc * pr)))
  generalize baseScale num (rc * pr) = s at h low high ⊢
  have scaled : rc * (s * pr) = s * (rc * pr) := Nat.mul_left_comm ..
  have step : rc * pr + pr ≤ s * pr := by rw [← Nat.succ_mul]; exact Nat.mul_le_mul_right pr h
  have pos : 0 < s * pr := by omega
  rw [Nat.succ_mul] at high
  apply Nat.le_antisymm
  · rw [← Nat.lt_succ_iff, effectiveReduction_lt_iff pos, Nat.succ_mul, scaled]
    omega
  · rw [le_effectiveReduction_iff pos, scaled]
    omega

/-- R52: the range of the effective reduction. -/
theorem effectiveReduction_range (hnum : 1600 ≤ num ∧ num ≤ 100000) (hs : 4096 ≤ s ∧ s ≤ 1048576)
    (hpr : 50 ≤ pr ∧ pr ≤ 200) : 1 ≤ effectiveReduction num s pr ∧ effectiveReduction num s pr ≤ 32000 := by
  have least : 4096 * 50 ≤ s * pr := Nat.mul_le_mul hs.1 hpr.1
  have most : s * pr ≤ 1048576 * 200 := Nat.mul_le_mul hs.2 hpr.2
  have pos : 0 < s * pr := by omega
  exact ⟨(le_effectiveReduction_iff pos 1).2 (by omega),
    Nat.le_of_lt_succ ((effectiveReduction_lt_iff pos 32001).2 (by omega))⟩

end EffectiveReduction

/-! ### The fit and the offsets (R43 to R46) -/

theorem fitOutcome_reduced {wo ho : Nat} {fit : Fit} (h : fitOutcome wo ho fit = .reduced) :
    fitsWindow wo ho = false := by
  unfold fitOutcome at h
  split at h
  · cases h
  · exact Bool.not_eq_true _ ▸ ‹_›

theorem fitScale_of_not_reduced {o : FitOutcome} (s wr hr : Nat) (h : o ≠ .reduced) : fitScale s wr hr o = s := by
  cases o with
  | reduced => exact absurd rfl h
  | complete => rfl
  | cropped => rfl

/-- R46: an offset centres the image, rounded toward minus infinity. -/
theorem centreOffset_centres (window extent : Nat) :
    2 * centreOffset window extent ≤ (window : Int) - extent
      ∧ (window : Int) - extent ≤ 2 * centreOffset window extent + 1 := by
  unfold centreOffset
  omega

/-! ### The geometry record (Table 3-1) -/

section Record
variable {ps wf hf rf rc pr : Nat} {fit : Fit} {landscape portrait : Rotation} {g : Geometry}

theorem makeGeometry_extents_range (hg : g = makeGeometry ps wf hf rf rc pr fit landscape portrait)
    (hw : 1 ≤ wf ∧ wf ≤ 16383) (hh : 1 ≤ hf ∧ hf ≤ 16383) :
    (1 ≤ g.wr ∧ g.wr ≤ 16383) ∧ (1 ≤ g.hr ∧ g.hr ≤ 16383) := by
  subst hg
  exact rotatedExtents_range _ hw hh

theorem makeGeometry_num_range (hg : g = makeGeometry ps wf hf rf rc pr fit landscape portrait)
    (hrf : 80 ≤ rf ∧ rf ≤ 500) : 1600 ≤ g.num ∧ g.num ≤ 100000 := by
  subst hg
  have pitch := clampPitch_range ps
  exact ⟨Nat.mul_le_mul pitch.1 hrf.1, Nat.mul_le_mul pitch.2 hrf.2⟩

/-- R42, R45: without a reduction the clamped base scale stands. -/
theorem makeGeometry_scale (hg : g = makeGeometry ps wf hf rf rc pr fit landscape portrait)
    (h : g.outcome ≠ .reduced) : g.scale = clampScale (baseScale g.num (rc * pr)) := by
  subst hg
  exact fitScale_of_not_reduced _ _ _ h

/-- R44: with one it is the smaller candidate, which is no larger than the clamped base scale. -/
theorem makeGeometry_scale_reduced (hg : g = makeGeometry ps wf hf rf rc pr fit landscape portrait)
    (h : g.outcome = .reduced) :
    g.scale = shrinkScale g.wr g.hr ∧ g.scale ≤ clampScale (baseScale g.num (rc * pr)) := by
  have taken : g.scale = shrinkScale g.wr g.hr := by
    subst hg
    exact congrArg (fitScale _ _ _) h
  subst hg
  exact ⟨taken, Nat.le_trans (Nat.le_of_eq taken) (shrinkScale_le (fitOutcome_reduced h))⟩

/-- R42: without SCALE_LIMITED the clamp changed nothing. -/
theorem makeGeometry_unlimited (hg : g = makeGeometry ps wf hf rf rc pr fit landscape portrait)
    (h : g.limited = false) : clampScale (baseScale g.num (rc * pr)) = baseScale g.num (rc * pr) := by
  subst hg
  exact bne_eq_false_iff_eq.1 h

end Record

/-- Settles O35: the scale lies in its range whatever the fit, SHRINK never takes a raised scale, and the reduction falls as
the scale rises. -/
theorem geometryOfFrame : Obligations.GeometryOfFrame := by
  intro ps wf hf rf rc pr fit landscape portrait hwf hhf hrf hrc hpr g hg
  obtain ⟨hw, hh⟩ := makeGeometry_extents_range hg hwf hhf
  have clamped := clampScale_range (baseScale g.num (rc * pr))
  have re : g.re = effectiveReduction g.num g.scale pr := by rw [hg]; rfl
  have base := effectiveReduction_baseScale (num := g.num) (rc := rc) (pr := pr) (by omega) (by omega)
  have reduces (h : g.outcome = .reduced) : 4096 < g.scale ∧ g.scale ≤ clampScale (baseScale g.num (rc * pr)) := by
    obtain ⟨taken, shrunk⟩ := makeGeometry_scale_reduced hg h
    exact ⟨taken ▸ lt_shrinkScale hw hh, shrunk⟩
  have scale : 4096 ≤ g.scale ∧ g.scale ≤ 1048576 := by
    by_cases h : g.outcome = .reduced
    · have := reduces h
      omega
    · rwa [makeGeometry_scale hg h]
  have centred : g.xoff = centreOffset 4096 g.wo ∧ g.yoff = centreOffset 2912 g.ho := by rw [hg]; exact ⟨rfl, rfl⟩
  refine ⟨fun unlimited unreduced => ?_, fun reduced => ?_,
    re ▸ effectiveReduction_range (makeGeometry_num_range hg hrf) scale hpr, scale.2,
    centred.1 ▸ centreOffset_centres 4096 g.wo, centred.2 ▸ centreOffset_centres 2912 g.ho⟩
  · have same := makeGeometry_unlimited hg unlimited
    rw [re, makeGeometry_scale hg unreduced, same]
    exact base (by omega)
  · have pos : 0 < g.scale * pr := Nat.mul_pos (by omega) (by omega)
    have below : g.scale ≤ baseScale g.num (rc * pr) := by
      obtain ⟨raised, shrunk⟩ := reduces reduced
      exact Nat.le_trans shrunk (clampScale_le (Nat.lt_of_lt_of_le raised shrunk))
    have inside := fits_shrinkScale hw.1 hh.1
    rw [← (makeGeometry_scale_reduced hg reduced).1] at inside
    have extents : g.wo = chipExtent g.wr g.scale ∧ g.ho = chipExtent g.hr g.scale := by rw [hg]; exact ⟨rfl, rfl⟩
    rw [re, extents.1, extents.2]
    exact ⟨Nat.le_trans (Nat.le_of_eq (base (by omega)).symm) (effectiveReduction_antitone pos below), inside⟩

end Sys2Proof.Machine
end

section
/-! SUPPORT. The bursts the Resampler asks for stay inside their slot (R50, R69 to R71, R75): the band of a line, the runs
of closing bursts, and the slot that an allocation names (R94). -/

namespace Sys2Proof.Machine

-- Checked one after another, as the tests are, to hold the memory and the threads down.
set_option Elab.async false

theorem writeFits_iff (b : WriteBurst) : writeFits b = true ↔
    b.slot < Config.slotCount ∧ b.first + b.lines.length ≤ slotSide ∧ ∀ l, l ∈ b.lines → l.length ≤ slotSide := by
  simp [writeFits, and_assoc]

/-! ### Bands (R50, R69 to R72) -/

/-- R50: what is clipped to a window lies in it. -/
theorem clip_inside (low high : Int) (window : Nat) : (clip low high window).1 + (clip low high window).2 ≤ window := by
  simp only [clip]
  omega

/-- Table 1-4: both windows of the raster are no larger than a slot's side. -/
theorem chipRows_le : Config.chipRows ≤ slotSide := by decide
theorem chipColumns_le : Config.chipColumns ≤ slotSide := by decide

theorem bandAxis_le (g : Geometry) : (bandAxis g).2 ≤ slotSide := by
  unfold bandAxis
  split
  · exact chipRows_le
  · exact chipColumns_le

theorem crossAxis_le (g : Geometry) : (crossAxis g).2 ≤ slotSide := by
  unfold crossAxis
  split
  · exact chipColumns_le
  · exact chipRows_le

theorem lineBand_inside (g : Geometry) (j : Nat) : (lineBand g j).1 + (lineBand g j).2 ≤ slotSide :=
  Nat.le_trans (clip_inside ..) (bandAxis_le g)

theorem bandInks_length (g : Geometry) (margin : Byte) (inks : List Byte) :
    (bandInks g margin inks).length = (crossAxis g).2 := by
  simp [bandInks]

/-- R72: combining with a carry, whatever its length, makes no row or column longer. -/
theorem combineCarry_length_le (carry : Option Carry) (line : Nat) (inks : List Byte) :
    (combineCarry carry line inks).length ≤ inks.length := by
  unfold combineCarry
  split
  · split
    · rw [List.length_zipWith]
      exact Nat.min_le_right ..
    · exact Nat.le_refl _
  · exact Nat.le_refl _

/-- R69 to R71: the burst of a line stays inside its slot. -/
theorem mapLine_fits {g : Geometry} {slot depth j : Nat} {margin : Byte} {carry : Option Carry} {inks : List Byte}
    {b : WriteBurst} {c : Carry} (hs : slot < Config.slotCount)
    (h : mapLine g slot depth margin carry j inks = some (b, c)) : writeFits b = true := by
  unfold mapLine at h
  simp only at h
  split at h
  · cases h
  · cases h
    refine (writeFits_iff _).2 ⟨hs, ?_, fun l hl => ?_⟩
    · simpa using lineBand_inside g j
    · simp only [List.map_map, List.mem_map] at hl
      obtain ⟨i, _, rfl⟩ := hl
      rw [Function.comp_apply, List.length_map]
      exact Nat.le_trans (combineCarry_length_le ..) (bandInks_length g margin inks ▸ crossAxis_le g)

/-! ### Closing bursts (R75 step 3) -/

/-- The bursts that a run is cut into end where the run ends. -/
theorem cutRun_inside {first count : Nat} {b : Nat × Nat} (h : b ∈ cutRun first count) :
    b.1 + b.2 ≤ first + count := by
  simp only [cutRun, Config.closingBurst, List.mem_map, List.mem_range] at h
  obtain ⟨i, hi, rfl⟩ := h
  simp only
  omega

theorem closingBursts_inRaster (g : Geometry) (implicit : Bool) : (Work.margins implicit (closingBursts g)).inRaster := by
  intro b hb
  have run : (coveredRun g).1 + (coveredRun g).2 ≤ (bandAxis g).2 := clip_inside ..
  refine Nat.le_trans ?_ (bandAxis_le g)
  rcases List.mem_append.1 hb with before | behind
  · have := cutRun_inside before
    omega
  · have := cutRun_inside behind
    omega

theorem marginBurst_fits {g : Geometry} {slot : Nat} {b : Nat × Nat} (depth : Nat) (margin : Byte)
    (hs : slot < Config.slotCount) (hb : b.1 + b.2 ≤ slotSide) :
    writeFits (marginBurst g slot depth margin b.1 b.2) = true := by
  refine (writeFits_iff _).2 ⟨hs, ?_, fun l hl => ?_⟩
  · rw [marginBurst, List.length_replicate]
    exact hb
  · rw [List.eq_of_mem_replicate hl, List.length_replicate]
    exact crossAxis_le g

/-! ### The slot of an allocation (R94) -/

theorem mem_of_bestBank {sc : Sc} {l : List Nat} {b : Nat} (h : bestBank sc l = some b) : b ∈ l := by
  induction l generalizing b with
  | nil => cases h
  | cons x xs ih =>
    unfold bestBank at h
    split at h
    · cases h; exact List.mem_cons_self
    · rename_i best
      split at h <;> cases h
      · exact List.mem_cons_self
      · exact List.mem_cons_of_mem x (ih best)

theorem mem_of_excludeBank {card : Option Nat} {cands : List Nat} {b : Nat} (h : b ∈ excludeBank card cands) :
    b ∈ cands := by
  unfold excludeBank at h
  split at h
  · simp only at h
    split at h
    · exact h
    · exact (List.mem_filter.1 h).1
  · exact h

/-- R90, R94: the slot chosen is one of the 512. -/
theorem chooseSlot_lt {sc : Sc} {card : Option Nat} {n : Nat} (h : chooseSlot sc card = some n) :
    n < Config.slotCount := by
  unfold chooseSlot at h
  split at h
  · cases h
  · rename_i b best
    have candidate := mem_of_excludeBank (mem_of_bestBank best)
    simp only [candidateBanks, freeInBank, List.mem_filter, List.mem_range, Bool.and_eq_true, decide_eq_true_eq,
      List.countP_pos_iff] at candidate
    obtain ⟨bank, _, free⟩ := candidate
    have inBank := List.findIdx_lt_length_of_exists free
    have size : (bankSlots sc b).length ≤ 128 := List.length_take_le ..
    cases h
    show 128 * b + _ < 512
    have : b < 4 := bank
    omega

end Sys2Proof.Machine
end

section
/-! SUPPORT. The write burst under the Store Controller (R91 to R105): its own operations leave the burst alone, grant it,
mark it as an aborted frame's, drop it or end it, and none moves it. -/

namespace Sys2Proof.Machine

-- Checked one after another, as the tests are, to hold the memory and the threads down.
set_option Elab.async false

/-! ### Slots change and the burst stands -/

@[simp] theorem moveSlot_write (n : Nat) (a b : ChipState) (f : Chip → Chip) (sc : Sc) :
    (moveSlot n a b f sc).write = sc.write := by
  unfold moveSlot
  split
  · split <;> rfl
  all_goals rfl

@[simp] theorem releaseSlot_write (n : Nat) (k : ChipState) (sc : Sc) : (releaseSlot n k sc).write = sc.write := by
  unfold releaseSlot
  split <;> rfl

@[simp] theorem fileSlot_write (n : Nat) (o : Owner) (g : CardFlags → CardFlags) (sc : Sc) :
    (fileSlot n o g sc).write = sc.write := moveSlot_write ..

@[simp] theorem freeReplaced_write (p : SheetPos) (sc : Sc) : (freeReplaced p sc).write = sc.write := by
  cases p <;> rfl

@[simp] theorem openSlot_write (k : CardKind) (sc : Sc) : (openSlot k sc).write = sc.write := by
  cases k with
  | chip job position copy slot => exact moveSlot_write ..
  | separatorOpen => rfl
  | separatorClose => rfl

@[simp] theorem queueSlots_write (id pos : Nat) (cs : List CardPos) (sc : Sc) :
    (queueSlots id pos cs sc).write = sc.write := by
  induction cs generalizing pos sc with
  | nil => rfl
  | cons c cs ih => exact (ih ..).trans (moveSlot_write ..)

@[simp] theorem freeCards_write (cs : List CardPos) (sc : Sc) : (freeCards cs sc).write = sc.write := by
  induction cs generalizing sc with
  | nil => rfl
  | cons c cs ih => exact (ih _).trans (releaseSlot_write ..)

@[simp] theorem endRead_write (r : ReadBurst) (sc : Sc) : (endRead r sc).write = sc.write := by
  unfold endRead
  simp only
  split <;> rfl

/-! ### The burst stays inside its slot -/

/-- R50, R71: the write burst, if there is one, stays inside its slot and the store. -/
def Sc.BurstFits (sc : Sc) : Prop := ∀ w, sc.write = some w → writeFits w = true

section BurstFits
variable {sc : Sc}

theorem burstFits_none (h : sc.write = none) : sc.BurstFits := fun _ e => nomatch h.symm.trans e

theorem burstFits_some {b : WriteBurst} (e : sc.write = some b) (h : writeFits b = true) : sc.BurstFits :=
  fun _ e' => Option.some.inj (e.symm.trans e') ▸ h

/-- R100: a burst that is granted stays where it is. -/
theorem burstFits_grantWrite (h : sc.BurstFits) : (grantWrite sc).BurstFits := by
  intro w granted
  obtain ⟨b, held, rfl⟩ := Option.map_eq_some_iff.1 granted
  exact h b held

theorem burstFits_grantBursts (h : sc.BurstFits) : (grantBursts sc).BurstFits := by
  unfold grantBursts
  split
  · split
    · split
      · exact h
      · split
        · exact h
        · exact burstFits_grantWrite h
    · exact burstFits_grantWrite h
  · exact burstFits_grantWrite h
  · exact h
  · exact h

theorem burstFits_storeIdle (h : sc.BurstFits) : (storeIdle sc).BurstFits := by
  unfold storeIdle
  split
  · split
    · exact burstFits_grantBursts h
    · exact h
  · split
    · exact h
    · split <;> exact h

theorem burstFits_storeSettle (h : sc.BurstFits) : (storeSettle sc).BurstFits := by
  unfold storeSettle
  split
  · exact h
  · split
    · split
      · exact h
      · split
        · exact h
        · split
          · exact h
          · exact burstFits_storeIdle h
    · exact burstFits_storeIdle h

theorem burstFits_dueMoment (h : sc.BurstFits) : (dueMoment sc).BurstFits := by
  unfold dueMoment
  split
  · exact h
  · split
    · split
      · exact h
      · exact burstFits_storeSettle h
    · exact h

theorem burstFits_refreshDueStep (h : sc.BurstFits) : (refreshDueStep sc).BurstFits := by
  unfold refreshDueStep
  split
  · exact h
  · simp only
    split
    · split <;> exact h
    · exact burstFits_dueMoment h

theorem burstFits_refreshEndStep (h : sc.BurstFits) : (refreshEndStep sc).BurstFits := by
  have ended : (endRefresh sc).BurstFits := by
    unfold endRefresh
    split <;> exact h
  unfold refreshEndStep
  split
  · exact burstFits_storeSettle ended
  · exact h

/-- R79, R98: the burst of an aborted frame is marked when it is active, and dropped when it waits. -/
theorem burstFits_dropSlot (slot : Option Nat) (h : sc.BurstFits) : (dropSlot slot sc).BurstFits := by
  unfold dropSlot
  split
  · exact h
  · split
    · rename_i w held
      split
      · exact burstFits_some rfl (h w held)
      · exact burstFits_none rfl
    · exact h

/-- R93: LINK RESET does the same. -/
theorem burstFits_resetStore (h : sc.BurstFits) : (resetStore sc).BurstFits := by
  refine burstFits_storeSettle fun w hw => ?_
  change resetWrite sc.write = some w at hw
  unfold resetWrite at hw
  split at hw
  · rename_i b held
    split at hw <;> cases hw
    exact h b held
  · cases hw

theorem burstFits_endWrite (w : WriteBurst) (sc : Sc) : (endWrite w sc).BurstFits := by
  refine burstFits_none ?_
  unfold endWrite
  simp only
  split <;> rfl

end BurstFits

end Sys2Proof.Machine
end

section
/-! SUPPORT. What every operation of the blocks keeps of `WritesFit` (R50, R71): an operation that leaves the write burst and
the intake's part alone keeps it by `WritesFit.congr`; the operations on the frame itself (R55 to R80) are proved in turn. -/

namespace Sys2Proof.Machine

-- Checked one after another, as the tests are, to hold the memory and the threads down.
set_option Elab.async false

variable {s t : State}

/-! ### What decides it -/

/-- The write burst and the intake's part alone decide. -/
theorem WritesFit.congr (h : WritesFit s) (write : t.sc.write = s.sc.write := by rfl) (rs : t.rs = s.rs := by rfl) :
    WritesFit t where
  burst := fun w e => h.burst w (write.symm.trans e)
  work := rs ▸ h.work
  slot := rs ▸ h.slot

/-- The SC may go on in any way that keeps its burst inside its slot. -/
theorem WritesFit.sc (h : WritesFit s) {sc : Sc} (fits : sc.BurstFits) : WritesFit { s with sc := sc } :=
  ⟨fits, h.work, h.slot⟩

theorem WritesFit.slots (h : WritesFit s) {sc : Sc} (write : sc.write = s.sc.write) : WritesFit { s with sc := sc } :=
  h.congr write

theorem WritesFit.intake (h : WritesFit s) {i : Intake} (slot : i.slotOk) : WritesFit (setIntake i s) :=
  ⟨h.burst, h.work, slot⟩

theorem WritesFit.setWork (h : WritesFit s) {w : Work} (inRaster : w.inRaster) : WritesFit (setWork w s) :=
  ⟨h.burst, inRaster, h.slot⟩

theorem fits_raiseNotice {n : Notice} (h : WritesFit s) : WritesFit (raiseNotice n s) :=
  h.congr (congrArg Sc.write (raiseNotice_sc n s)) (raiseNotice_rs n s)

theorem fits_storeOnly (h : WritesFit s) : WritesFit (storeOnly s) := h.sc (burstFits_storeSettle h.burst)

/-! ### The SAU and the Card Queue (R113 to R130) -/

theorem fits_closeSet {n : Nat} {b : Bool} (h : WritesFit s) : WritesFit (closeSet n b s) := by
  unfold closeSet
  simp only
  split <;> exact h.congr

theorem fits_placeJob {j : Job} (h : WritesFit s) : WritesFit (placeJob j s) := h.congr (queueSlots_write ..)

/-- R127: the marker's placing ends a BATCH END's wait and no other. -/
theorem fits_placeMarker (h : WritesFit s) : WritesFit (placeMarker s) := by
  unfold placeMarker
  simp only
  split
  · exact ⟨h.burst, h.work, trivial⟩
  all_goals exact h.congr

theorem fits_placeItem {x : BacklogItem} (h : WritesFit s) : WritesFit (placeItem x s) := by
  cases x with
  | set n => exact (fits_placeJob h).congr
  | group => exact (fits_placeJob h).congr
  | spill n opening =>
    unfold placeItem placeSpill
    simp only
    split
    · exact (fits_placeJob h).congr
    · exact h
  | marker => exact fits_placeMarker h

theorem fits_placeHead (h : WritesFit s) : WritesFit (placeHead s) := by
  unfold placeHead
  split
  · exact h
  · exact fits_placeItem h.congr

theorem fits_serveBacklog (n : Nat) (h : WritesFit s) : WritesFit (serveBacklog n s) := by
  induction n generalizing s with
  | zero => exact h
  | succ n ih =>
    unfold serveBacklog
    split
    · exact ih (fits_placeHead h)
    · exact h

theorem fits_drainBacklog (h : WritesFit s) : WritesFit (drainBacklog s) := fits_serveBacklog _ h

theorem fits_endSet {n roll ordinal : Nat} (h : WritesFit s) : WritesFit (endSet n roll ordinal s) := by
  unfold endSet
  simp only
  split
  · exact h.congr
  · split
    · exact fits_closeSet h
    · split
      · exact fits_raiseNotice h.congr
      · exact fits_raiseNotice (fits_closeSet h)

theorem fits_openOrForce {x : Target} (h : WritesFit s) : WritesFit (openOrForce x s) := by
  unfold openOrForce
  split
  · exact h.congr
  · split
    · exact h.congr
    · rename_i n _
      have forced : WritesFit (drainBacklog (forceOut n x.roll x.ordinal 1 s)) :=
        fits_drainBacklog (fits_raiseNotice (fits_closeSet h))
      simp only
      split <;> exact forced.congr

theorem fits_endBatch {x : Target} (h : WritesFit s) : WritesFit (endBatch x s) := by
  unfold endBatch
  simp only [batchTail]
  split
  · exact h.congr
  · exact (fits_endSet h).congr

/-- R77: a target leaves no frame open. -/
theorem fits_targetOp {x : Target} (h : WritesFit s) : WritesFit (targetOp x s) := by
  have idle : WritesFit { s with rs := { s.rs with intake := .idle } } := h.intake trivial
  unfold targetOp
  simp only
  split
  · unfold startTargetOp
    split
    · exact fits_openOrForce idle
    · exact fits_openOrForce (fits_drainBacklog (fits_endSet (fits_raiseNotice idle)))
  · unfold endTargetOp
    split
    · exact idle.congr
    · exact (fits_drainBacklog (fits_endSet idle)).congr
  · exact fits_drainBacklog ((fits_endBatch idle).intake (i := .waitTarget x) trivial)

theorem fits_askRelease {f : FrameCtx} (h : WritesFit s) : WritesFit (askRelease f s) := by
  unfold askRelease pressureRelease
  split
  · exact fits_raiseNotice (fits_closeSet h.congr)
  · split
    · exact h.congr
    · unfold requestSpill
      split
      · exact h.congr
      · simp only
        split <;> exact h.congr

theorem fits_releaseReservation (h : WritesFit s) : WritesFit (releaseReservation s) := by
  unfold releaseReservation
  split
  · exact h.congr
  · exact h

theorem fits_fileFrame {f : FrameCtx} {slot : Nat} (h : WritesFit s) : WritesFit (fileFrame f slot s) := by
  unfold fileFrame
  split
  · unfold fileIntoSet
    extract_lets r title before retake extra sc1 r1 s1
    have filed : WritesFit s1 := h.congr ((fileSlot_write ..).trans (freeReplaced_write ..))
    split
    · exact fits_closeSet filed
    · exact filed
  · exact h
  · unfold fileIntoGroup
    simp only
    split <;> exact h.congr (fileSlot_write ..)
  · exact h.congr ((queueSlots_write ..).trans (fileSlot_write ..))

/-! ### The card path (R138 to R163) -/

/-- R155, R156: a card that goes on changes no more of the SC than its read burst. -/
theorem fits_nextStep {c : Card} {slot : Nat} (h : WritesFit s) : WritesFit (nextStep c slot s) := by
  unfold nextStep
  split
  · exact h.congr
  · split
    · exact h.congr
    · exact h

theorem fits_pump (h : WritesFit s) : WritesFit (pump s) := by
  unfold pump
  split
  · exact h
  · split
    · exact h
    · exact h
    · split
      · unfold pumpChip
        split
        · exact fits_nextStep h.congr
        · exact fits_nextStep h
      all_goals exact h.congr

theorem fits_openCard {k : CardKind} {a : Nat} (h : WritesFit s) : WritesFit (openCard k a s) := by
  unfold openCard
  exact fits_pump (h.congr (openSlot_write ..))

theorem fits_endSlot {k : CardKind} {v : Verdict} (h : WritesFit s) : WritesFit (endSlot k v s) := by
  unfold endSlot
  split
  · split
    · exact h.slots (releaseSlot_write ..)
    · exact h.slots (moveSlot_write ..)
  all_goals exact h

theorem fits_copyDone {k : CardKind} (h : WritesFit s) : WritesFit (copyDone k s) := by
  unfold copyDone
  split
  · unfold jobDone
    split
    · exact h
    · simp only
      split <;> exact h.congr
  all_goals
    unfold separatorDone
    split
    · exact h
    · split
      · exact h.congr
      · exact h
      · exact h.congr

theorem fits_endAttempt {c : Card} {v : Verdict} (h : WritesFit s) : WritesFit (endAttempt c v s) := by
  have cleared : WritesFit (clearCard c v (endSlot c.kind v s)) := (fits_endSlot h).congr
  cases v with
  | completed => exact fits_copyDone cleared.congr
  | retry cause => exact cleared.congr
  | rejected cause =>
    exact fits_copyDone (fits_raiseNotice (n := cardNotice _ .cardRejected c.kind _) cleared).congr

theorem fits_withdrawRetry {k : CardKind} (h : WritesFit s) : WritesFit (withdrawRetry k s) := by
  have withdrawn : WritesFit (withdrawSlot k s) := by
    unfold withdrawSlot
    split
    · split
      · exact h.slots (releaseSlot_write ..)
      · exact h
    all_goals exact h
  exact fits_copyDone withdrawn.congr

theorem fits_takeAccepted {echo : Nat} (h : WritesFit s) : WritesFit (takeAccepted echo s) := by
  unfold takeAccepted
  split
  · exact fits_endAttempt h
  · unfold lateAccepted
    simp only
    split
    · split
      · exact fits_withdrawRetry (fits_raiseNotice h)
      · exact fits_raiseNotice h
    · exact fits_raiseNotice h

theorem fits_takeSpoiled {echo : Nat} {r : SpoilReason} (h : WritesFit s) : WritesFit (takeSpoiled echo r s) := by
  unfold takeSpoiled
  split
  · exact fits_endAttempt h
  · exact fits_raiseNotice h

theorem fits_takeRecorderState {ready : Bool} (h : WritesFit s) : WritesFit (takeRecorderState ready s) := by
  unfold takeRecorderState
  split
  · exact h
  · exact fits_pump h.congr

theorem fits_takeRestarted (h : WritesFit s) : WritesFit (takeRestarted s) := by
  unfold takeRestarted
  simp only
  split
  · exact fits_endAttempt (fits_raiseNotice h.congr)
  · exact fits_raiseNotice h.congr

theorem fits_takeMessage {m : RecorderMessage} (h : WritesFit s) : WritesFit (takeMessage m s) := by
  cases m with
  | state ready => exact fits_takeRecorderState h
  | accepted echo => exact fits_takeAccepted h
  | spoiled echo reason => exact fits_takeSpoiled h
  | restarted => exact fits_takeRestarted h

theorem fits_removeMarker (h : WritesFit s) : WritesFit (removeMarker s) := fits_raiseNotice h.congr

/-! ### What follows from a change (R142) -/

theorem fits_settleCards (h : WritesFit s) (e : settleCards s = some t) : WritesFit t := by
  unfold settleCards at e
  split at e
  · cases e
    unfold markerOrRelease
    simp only
    split
    · exact fits_removeMarker h.congr
    · exact fits_askRelease h.congr
  · cases e; exact fits_removeMarker h
  · cases e; exact fits_askRelease h
  · simp only [boundaryCard, Option.map_eq_some_iff] at e
    obtain ⟨⟨u, k, a⟩, chosen, rfl⟩ := e
    split at chosen
    · obtain ⟨cs, rfl⟩ := chooseCard_cs chosen
      exact fits_openCard h.congr
    · cases chosen

theorem reservationGrant_intake {f : FrameCtx} (h : reservationGrant s = some f) :
    s.rs.intake = .waitReservation f := by
  unfold reservationGrant reservationWaiter at h
  cases hi : s.rs.intake <;> simp_all

/-- R97: the slot granted is one that R94 chose. -/
theorem slotGrant_lt {f : FrameCtx} {n : Nat} (h : slotGrant s = some (f, n)) : n < Config.slotCount := by
  unfold slotGrant at h
  split at h
  · obtain ⟨m, chosen, e⟩ := Option.map_eq_some_iff.1 h
    cases e
    exact chooseSlot_lt chosen
  · cases h

theorem fits_settleStep (h : WritesFit s) (e : settleStep s = some t) : WritesFit t := by
  rcases settleStep_cases e with ⟨_, _, rfl⟩ | ⟨f, granted, rfl⟩ | ⟨f, n, granted, rfl⟩ | cards
  · exact fits_placeHead h
  · have noSlot : f.slot = none := by
      have := h.slot
      rwa [reservationGrant_intake granted] at this
    exact ⟨h.burst, h.work, noSlot⟩
  · exact ⟨h.burst, h.work, slotGrant_lt granted⟩
  · exact fits_settleCards h cards

theorem fits_settle (h : WritesFit s) : WritesFit (settle s) :=
  settle_keeps (P := WritesFit) (fun _ _ => fits_settleStep) (fun _ h => h.sc (burstFits_storeSettle h.burst)) h

theorem fits_beginWake (h : WritesFit s) : WritesFit (beginWake s) := fits_settle h.congr

theorem fits_finish (h : WritesFit s) : WritesFit (finish s) := by
  have met : WritesFit (meetHeader s) := by
    unfold meetHeader
    split
    · exact fits_beginWake h
    · exact h
  exact met.congr (congrArg Sc.write (channel_mode _)) (channel_rs _)

/-! ### Taking a header (R57 to R62) -/

theorem fits_evaluateHeader {x : Header} {m : Option Matched} (h : WritesFit s) : WritesFit (evaluateHeader x m s) := by
  unfold evaluateHeader
  simp only
  split
  · split
    · exact fits_raiseNotice h.congr
    · exact h.congr
  · exact h.congr

theorem fits_noticeClamped {g : Geometry} {x : Header} {m : Option Matched} (h : WritesFit s) :
    WritesFit (noticeClamped g x m s) := by
  unfold noticeClamped
  split
  · exact fits_raiseNotice h
  · exact h

/-- R59, R61, R62: a frame that is set up waits, and holds no slot. -/
theorem firstWait_slotOk {f : FrameCtx} (h : f.slot = none) : (firstWait f).slotOk := by
  unfold firstWait
  split <;> exact h

theorem fits_floorTest {x : Header} {m : Option Matched} {rf : Nat} (h : WritesFit s) :
    WritesFit (floorTest x m rf s) := by
  unfold floorTest
  split
  · exact (fits_raiseNotice h).intake trivial
  · exact ⟨(fits_noticeClamped h).burst, trivial, firstWait_slotOk rfl⟩

theorem fits_takeHeader {x : Header} (h : WritesFit s) : WritesFit (takeHeader x s) := by
  unfold takeHeader
  split
  · exact (fits_raiseNotice h).intake trivial
  · split
    · exact h.intake trivial
    · exact (fits_raiseNotice (fits_evaluateHeader h)).intake trivial
    · exact fits_floorTest (fits_evaluateHeader h)
    · exact fits_floorTest (fits_evaluateHeader h)

/-! ### Lines, fills and closing bursts (R65 to R75) -/

section OpenFrame
variable {f : FrameCtx} {g : Geometry}

theorem fits_enterGapped {slot : Nat} (h : WritesFit s) : WritesFit { s with sc := enterGapped slot s.sc } :=
  h.slots (enterGapped_write ..)

/-- R69 to R71: the burst of a line is asked for in the frame's own slot. -/
theorem fits_placeLine {inks : List Byte} (h : WritesFit s) (slot : (Intake.receiving f).slotOk) :
    WritesFit (placeLine f g (f.slot.getD 0) inks s) := by
  unfold placeLine
  split
  · rename_i b c mapped
    exact ⟨burstFits_some rfl (mapLine_fits slot mapped), h.work, slot⟩
  · exact ⟨h.burst, h.work, slot⟩

theorem fits_fillLine (h : WritesFit s) (slot : (Intake.receiving f).slotOk) :
    WritesFit (fillLine f g (f.slot.getD 0) s) :=
  fits_placeLine (f := f.gapped) (fits_enterGapped h) slot

theorem fits_resampleLine {samples : List Byte} (h : WritesFit s) (slot : (Intake.receiving f).slotOk) :
    WritesFit (resampleLine f g (f.slot.getD 0) samples s) := by
  unfold resampleLine
  split
  · exact fits_fillLine h slot
  · simp only
    split
    · exact fits_placeLine (f := f.gapped) (fits_enterGapped h) slot
    · exact fits_placeLine h slot

theorem fits_sentCheck {slot : Nat} {sent : Option Nat} (h : WritesFit s) (slotOk : (Intake.receiving f).slotOk) :
    WritesFit (sentCheck f slot sent s) := by
  unfold sentCheck
  split
  · split
    · exact (fits_enterGapped h).intake (i := .receiving f.gapped) slotOk
    · exact h
  · exact h

theorem fits_workStep (h : WritesFit s) (slot : (Intake.receiving f).slotOk)
    (e : workStep f g (f.slot.getD 0) s = some t) : WritesFit t := by
  unfold workStep at e
  split at e
  · cases e
  · split at e <;> cases e
    · exact fits_fillLine h slot
    · exact (fits_resampleLine h slot).setWork trivial
  · split at e <;> cases e
    · exact fits_fillLine h slot
    · exact (fits_sentCheck h slot).setWork (closingBursts_inRaster g _)
  · cases e
  · rename_i implicit b bs work
    cases e
    have inRaster : (Work.margins implicit (b :: bs)).inRaster := work ▸ h.work
    exact ⟨burstFits_some rfl (marginBurst_fits _ _ slot (inRaster b List.mem_cons_self)),
      fun x hx => inRaster x (List.mem_cons_of_mem b hx), h.slot⟩

end OpenFrame

theorem fits_runWork (n : Nat) (h : WritesFit s) : WritesFit (runWork n s) := by
  induction n generalizing s with
  | zero => exact h
  | succ n ih =>
    unfold runWork
    split
    · rename_i f g _ receiving _
      split
      · rename_i step
        exact ih (fits_workStep h (receiving ▸ h.slot) step)
      · exact h
    · exact h

/-! ### The close of a frame, and its end (R57, R65, R75 to R80) -/

theorem fits_fileOpen (h : WritesFit s) : WritesFit (fileOpen s) := by
  unfold fileOpen
  split
  · exact ⟨(fits_fileFrame h).burst, trivial, trivial⟩
  all_goals exact h

theorem fits_popHead (h : WritesFit s) : WritesFit (popHead s) := h.congr

theorem fits_takeCause (h : WritesFit s) : WritesFit (takeCause s) := by
  unfold takeCause
  split
  · exact fits_settle (fits_takeHeader (fits_popHead h))
  · exact fits_settle (fits_targetOp (fits_popHead h))
  · exact (fits_popHead h).intake trivial
  · exact h

theorem fits_advance (h : WritesFit s) : WritesFit (advance s) := by
  have worked := fits_runWork workFuel h
  unfold advance
  simp only
  split
  · have filed := fits_settle (fits_fileOpen worked)
    unfold closeFrame
    simp only
    split
    · exact fits_takeCause filed
    · exact filed
  · exact fits_storeOnly worked

theorem fits_implicitEnd {f : FrameCtx} (h : WritesFit s) : WritesFit (implicitEnd f s) :=
  fits_advance ((fits_raiseNotice h).setWork trivial)

theorem fits_takeFrameHeader {x : Header} (h : WritesFit s) : WritesFit (takeFrameHeader x s) := by
  unfold takeFrameHeader
  split
  · exact fits_implicitEnd h
  all_goals exact fits_settle (fits_takeHeader (fits_popHead h))

theorem fits_takeLineRecord {n : Nat} {samples : List Byte} (h : WritesFit s) :
    WritesFit (takeLineRecord n samples s) := by
  unfold takeLineRecord
  split
  · rename_i f receiving
    have counted : WritesFit (setIntake (.receiving { f with records := min 65535 (f.records + 1) }) s) :=
      h.intake (receiving ▸ h.slot : (Intake.receiving f).slotOk)
    unfold takeLine
    simp only
    split
    · exact fits_advance (counted.setWork trivial)
    · exact counted
  all_goals exact h

theorem fits_takeFrameEndRecord {sent : Nat} (h : WritesFit s) : WritesFit (takeFrameEndRecord sent s) := by
  unfold takeFrameEndRecord
  split
  · exact fits_advance (h.setWork trivial)
  · exact h.intake trivial
  all_goals exact h

theorem fits_takeTarget {x : Target} (h : WritesFit s) : WritesFit (takeTarget x s) := by
  unfold takeTarget
  split
  · exact fits_implicitEnd h
  all_goals exact fits_settle (fits_targetOp (fits_popHead h))

theorem fits_takeLoss {k : FilmKind} (h : WritesFit s) : WritesFit (takeLoss k s) := by
  unfold takeLoss
  split
  · split
    · exact fits_implicitEnd h
    all_goals exact (fits_popHead h).intake trivial
  all_goals exact fits_popHead h

/-- R78, R79: an aborted frame leaves the intake empty, and at most its active burst. -/
theorem fits_abortWith {f : FrameCtx} {lost : Notice} (h : WritesFit s) : WritesFit (abortWith f lost s) :=
  ⟨burstFits_dropSlot _ (fits_raiseNotice (fits_releaseReservation h)).burst, trivial, trivial⟩

theorem fits_intakeLinkLoss (h : WritesFit s) : WritesFit (intakeLinkLoss s) := by
  unfold intakeLinkLoss
  split
  case h_4 => exact h.intake trivial
  case h_5 | h_6 => exact h
  all_goals exact fits_abortWith h

end Sys2Proof.Machine
end

section
/-! SUPPORT. What every command keeps of `WritesFit`, and why WRITE_BURST_SERVED always answers a next state. The
statement O12. -/

namespace Sys2Proof.Machine

-- Checked one after another, as the tests are, to hold the memory and the threads down.
set_option Elab.async false

variable {s t : State}

/-! ### Management records (R3, R8, R87, R107 to R112, R131, R132, R146, R164, R176) -/

theorem fits_placeReply {tag code : Byte} {r : ReplyResult} (h : WritesFit s) : WritesFit (placeReply tag code r s) :=
  h.congr

theorem fits_tableWriteOp {tag kind : Byte} {position : Nat} {content : List Byte} (h : WritesFit s) :
    WritesFit (tableWriteOp tag kind position content s) := by
  unfold tableWriteOp
  split
  · exact h.congr
  · split <;> exact h.congr

theorem fits_setReleaseOp {tag : Byte} {n : Nat} (h : WritesFit s) : WritesFit (setReleaseOp tag n s) := by
  unfold setReleaseOp
  split
  · exact h.congr
  · have released : WritesFit (releaseSet n s) := by
      unfold releaseSet
      split
      · exact fits_drainBacklog (fits_closeSet h)
      · exact h
    exact fits_settle (fits_placeReply released)

theorem fits_setDiscardOp {tag : Byte} {n : Nat} (h : WritesFit s) : WritesFit (setDiscardOp tag n s) := by
  unfold setDiscardOp
  split
  · exact h.congr
  · have discarded (u : State) (hu : WritesFit u) : WritesFit (discardSet n u) := hu.congr (freeCards_write ..)
    simp only
    split
    case h_3 | h_4 => exact h.congr
    all_goals exact fits_settle (discarded _ (fits_placeReply h))

theorem fits_cardCancelOp {tag : Byte} (h : WritesFit s) : WritesFit (cardCancelOp tag s) := by
  unfold cardCancelOp
  split
  · exact fits_settle (fits_endAttempt h.congr)
  · exact h.congr

theorem fits_storeSetupOp {tag : Byte} {interval banks : Nat} (h : WritesFit s) :
    WritesFit (storeSetupOp tag interval banks s) := by
  unfold storeSetupOp
  split
  · exact h.congr
  · exact fits_settle h.congr

theorem fits_storeRetainOp {tag : Byte} (h : WritesFit s) : WritesFit (storeRetainOp tag s) := by
  unfold storeRetainOp
  split
  · split <;> exact h.congr
  all_goals exact h.congr

theorem fits_storeWakeOp {tag : Byte} (h : WritesFit s) : WritesFit (storeWakeOp tag s) := by
  unfold storeWakeOp
  split
  · exact fits_beginWake (fits_placeReply h)
  all_goals exact h.congr

/-- R80, R112: a purge aborts a frame that waits, and carries a waiting BATCH END out again. -/
theorem fits_storePurgeOp {tag : Byte} (h : WritesFit s) : WritesFit (storePurgeOp tag s) := by
  have aborted : WritesFit (purgeFrame s) := by
    unfold purgeFrame
    split
    case h_1 | h_2 => exact fits_abortWith h
    all_goals exact h
  have purged : WritesFit (purgeAll (purgeFrame s)) := aborted.congr
  have again : WritesFit (againTarget (purgeAll (purgeFrame s))) := by
    unfold againTarget
    split
    · exact fits_targetOp purged
    all_goals exact purged
  unfold storePurgeOp
  split
  · exact h.congr
  · refine fits_settle ?_
    unfold purgeEnd
    split <;> exact again.congr

theorem fits_monitorSetupOp {tag : Byte} {m : MonitorFields} (h : WritesFit s) : WritesFit (monitorSetupOp tag m s) := by
  unfold monitorSetupOp
  split
  · exact h.congr
  · refine fits_placeReply ?_
    unfold warnLate
    split
    · split
      · exact fits_raiseNotice h.congr
      · exact h.congr
    · exact h.congr

theorem fits_recorderSetupOp {tag : Byte} {pr timeout : Nat} (h : WritesFit s) :
    WritesFit (recorderSetupOp tag pr timeout s) := by
  unfold recorderSetupOp
  split <;> exact h.congr

/-- R78, R93: LINK RESET empties the intake and leaves at most an active burst. -/
theorem fits_linkResetOp {tag : Byte} (h : WritesFit s) : WritesFit (linkResetOp tag s) := by
  have abandoned : WritesFit (abandonCard s) := by
    unfold abandonCard
    split
    · exact h.congr
    · exact h
  exact ⟨burstFits_resetStore abandoned.burst, trivial, trivial⟩

/-! ### The links and the store's events -/

theorem fits_markLoss {k : FilmKind} (h : WritesFit s) : WritesFit (markLoss k s) := by
  unfold markLoss
  split <;> exact h.congr

theorem fits_takeRecord {r : LinkRecord} (h : WritesFit s) : WritesFit (takeRecord r s) := by
  unfold takeRecord
  split
  · unfold takeCheckError
    split
    · exact fits_markLoss (fits_raiseNotice h)
    · exact fits_raiseNotice h
  · split
    · exact h.congr
    · unfold overrun
      split <;> exact h.congr
  · split
    · exact h
    · exact h.congr

theorem fits_endSending (h : WritesFit s) : WritesFit (endSending s) := by
  unfold endSending
  split
  · exact h
  all_goals split <;> exact h.congr

/-- R74: the burst has ended when the RS goes on. -/
theorem fits_writeServed {w : WriteBurst} (h : WritesFit s) : WritesFit (writeServed w s) := by
  have ended : WritesFit { s with sc := endWrite w s.sc } := h.sc (burstFits_endWrite w s.sc)
  unfold writeServed
  simp only
  split
  · exact fits_settle ended
  · exact fits_advance ended

theorem fits_readServed {r : ReadBurst} (h : WritesFit s) : WritesFit (readServed r s) := by
  unfold readServed
  exact fits_storeOnly (fits_pump (h.congr (endRead_write ..)))

theorem fits_endWake (h : WritesFit s) : WritesFit (endWake s) := by
  have active : WritesFit (storeOnly { s with sc := { s.sc with mode := .active } }) := fits_storeOnly h.congr
  unfold endWake
  simp only
  split
  · exact fits_settle (fits_takeHeader (fits_popHead active))
  · exact active

/-! ### Every command -/

/-- An event whose condition does not hold has no effect (log entry 1). -/
theorem fits_event {p : Prop} [Decidable p] {u : State} (h : WritesFit s) (hu : WritesFit u)
    (e : (if p then .next (finish u) else .next (fresh s) : Host.Outcome State Fault Refusal) = .next t) :
    WritesFit t := by
  split at e <;> cases e
  · exact fits_finish hu
  · exact h.congr

/-- Nor has a command when what it acts on does not stand there. -/
theorem fits_actOn {α : Type} {c : Instr} {head : Option α} {op : α → State} (h : WritesFit s)
    (e : exec c s = .next t) (acts : exec c s = actOn head op s) (hop : ∀ a, WritesFit (op a)) : WritesFit t := by
  rw [acts] at e
  cases head with
  | none => cases e; exact h.congr
  | some a => cases e; exact fits_finish (hop a)

theorem writesFit_powerOn (cs : List Instr) : WritesFit { State.reset with pending := cs } :=
  ⟨nofun, trivial, trivial⟩

/-- Every command keeps the write burst, and those the open frame will ask for, inside their slot. -/
theorem exec_fits {c : Instr} (h : WritesFit s) (e : exec c s = .next t) : WritesFit t := by
  have begun : WritesFit (fresh s) := h.congr
  have head : WritesFit (taken s) := h.congr
  cases c with
  | powerOn => cases e; exact writesFit_powerOn _
  | loadingEnd words => exact fits_event h begun.congr e
  | linkUp => exact fits_event h begun.congr e
  | linkLoss => exact fits_event h (fits_settle (fits_intakeLinkLoss (fits_raiseNotice begun.congr))) e
  | recordReceived r => exact fits_event h (fits_takeRecord begun) e
  | frameHeader =>
    simp only [exec, execFrameHeader] at e
    split at e
    · split at e <;> cases e
      · exact fits_finish (fits_takeFrameHeader begun)
      · exact fits_finish begun
    · cases e; exact begun
  | line => exact fits_actOn h e (exec_line s) fun _ => fits_takeLineRecord head
  | frameEnd => exact fits_actOn h e (exec_frameEnd s) fun _ => fits_takeFrameEndRecord head
  | start => exact fits_actOn h e (exec_start s) fun _ => fits_takeTarget begun
  | endTarget => exact fits_actOn h e (exec_endTarget s) fun _ => fits_takeTarget begun
  | batchEnd => exact fits_actOn h e (exec_batchEnd s) fun _ => fits_takeTarget begun
  | lossIndication => exact fits_actOn h e (exec_lossIndication s) fun _ => fits_takeLoss begun
  | tableWrite => exact fits_actOn h e (exec_tableWrite s) fun _ => fits_tableWriteOp head
  | tableFence => exact fits_actOn h e (exec_tableFence s) fun _ => head.congr
  | tableRead => exact fits_actOn h e (exec_tableRead s) fun _ => head.congr
  | tableDescribe => exact fits_actOn h e (exec_tableDescribe s) fun _ => head.congr
  | setRelease => exact fits_actOn h e (exec_setRelease s) fun _ => fits_setReleaseOp head
  | setDiscard => exact fits_actOn h e (exec_setDiscard s) fun _ => fits_setDiscardOp head
  | cardCancel => exact fits_actOn h e (exec_cardCancel s) fun _ => fits_cardCancelOp head
  | storeSetup => exact fits_actOn h e (exec_storeSetup s) fun _ => fits_storeSetupOp head
  | storeRetain => exact fits_actOn h e (exec_storeRetain s) fun _ => fits_storeRetainOp head
  | storeWake => exact fits_actOn h e (exec_storeWake s) fun _ => fits_storeWakeOp head
  | storePurge => exact fits_actOn h e (exec_storePurge s) fun _ => fits_storePurgeOp head
  | storePurgeDone => exact fits_actOn h e (exec_storePurgeDone s) fun _ => fits_settle begun.congr
  | monitorSetup => exact fits_actOn h e (exec_monitorSetup s) fun _ => fits_monitorSetupOp head
  | recorderSetup => exact fits_actOn h e (exec_recorderSetup s) fun _ => fits_recorderSetupOp head
  | statusRead => exact fits_actOn h e (exec_statusRead s) fun _ => head.congr
  | statusClear => exact fits_actOn h e (exec_statusClear s) fun _ => head.congr
  | linkReset => exact fits_actOn h e (exec_linkReset s) fun _ => fits_linkResetOp head
  | linkResetComplete => exact fits_actOn h e (exec_linkResetComplete s) fun _ => begun.congr
  | unknownKind => exact fits_actOn h e (exec_unknownKind s) fun _ => head.congr
  | writeBurstServed =>
    simp only [exec, execWriteBurstServed] at e
    split at e
    · split at e <;> cases e
      exact fits_finish (fits_writeServed begun)
    · cases e; exact begun
  | readBurstServed =>
    simp only [exec, execReadBurstServed] at e
    split at e
    · split at e <;> cases e
      exact fits_finish (fits_readServed begun)
    · cases e; exact begun
  | refreshDue => cases e; exact begun.sc (burstFits_refreshDueStep h.burst)
  | refreshEnd => cases e; exact begun.sc (burstFits_refreshEndStep h.burst)
  | wakeEnd => exact fits_event h (fits_endWake begun) e
  | responseTimerExpiry =>
    exact fits_actOn h e (exec_responseTimerExpiry s) fun _ => fits_settle (fits_endAttempt begun)
  | recorderState ready => cases e; exact fits_finish (fits_settle (fits_takeRecorderState begun))
  | cardAccepted echo => cases e; exact fits_finish (fits_settle (fits_takeAccepted begun))
  | cardSpoiled echo reason => cases e; exact fits_finish (fits_settle (fits_takeSpoiled begun))
  | recorderRestarted => cases e; exact fits_finish (fits_settle (fits_takeRestarted begun))
  | recorderMessageDropped r =>
    exact fits_actOn h e (exec_recorderMessageDropped s r) fun _ => fits_settle (fits_takeMessage begun)
  | returnSendEnd => exact fits_event h (fits_endSending begun) e

theorem step_fits (h : WritesFit s) (e : step s = .next t) : WritesFit t := by
  unfold step at e
  split at e
  · cases e; exact h
  · exact exec_fits h.congr e

/-! ### The guard of WRITE_BURST_SERVED (R71, log entry 32) -/

theorem activeWrite_some {w : WriteBurst} (e : activeWrite s = some w) : s.sc.write = some w := by
  unfold activeWrite at e
  split at e
  · split at e <;> cases e
    assumption
  · cases e

theorem writeBurstServed_answers (h : WritesFit s) : ∃ t, exec .writeBurstServed s = .next t := by
  simp only [exec, execWriteBurstServed]
  split
  · rename_i w active
    rw [if_pos (h.burst w (activeWrite_some active))]
    exact ⟨_, rfl⟩
  · exact ⟨_, rfl⟩

/-- Settles O12: every command keeps the bursts inside their slots (`exec_fits`), so the guard always passes. -/
theorem stepKeepsWritesFit : Obligations.StepKeepsWritesFit :=
  ⟨fun _ _ => step_fits, fun _ => writeBurstServed_answers⟩

end Sys2Proof.Machine
end

section
/-! SUPPORT. The DRAM under a write burst: the canonical form is kept by every step, and after a burst every address reads
the byte that the burst brings to it (R71, R99; log entry 5). The statement O5. -/

namespace Sys2Proof.Machine

-- Checked one after another, as the tests are, to hold the memory and the threads down.
set_option Elab.async false

/-! ### The canonical form (Table 6-1) -/

theorem endWrite_dram (w : WriteBurst) (sc : Sc) : (endWrite w sc).dram = writeBurstDots w sc.dram := by
  unfold endWrite
  extract_lets
  split <;> rfl

theorem writeServed_dram (w : WriteBurst) (s : State) : (writeServed w s).sc.dram = writeBurstDots w s.sc.dram := by
  unfold writeServed
  extract_lets
  split
  · rw [settle_dram]; exact endWrite_dram w s.sc
  · rw [advance_dram]; exact endWrite_dram w s.sc

/-- R71, R99: what WRITE_BURST_SERVED answers while a burst that stays in its slot is active. -/
theorem exec_writeBurstServed {s : State} {w : WriteBurst} (active : activeWrite s = some w) (fits : writeFits w = true) :
    exec .writeBurstServed s = .next (finish (writeServed w (fresh s))) := by
  simp only [exec, execWriteBurstServed, active, fits, if_true]

theorem exec_writeBurstServed_idle {s : State} (idle : activeWrite s = none) :
    exec .writeBurstServed s = .next (fresh s) := by
  simp only [exec, execWriteBurstServed, idle]

theorem exec_writeBurstServed_fault {s : State} {w : WriteBurst} (active : activeWrite s = some w)
    (outside : writeFits w = false) : exec .writeBurstServed s = .fault .outsideStore := by
  simp only [exec, execWriteBurstServed, active, outside, Bool.false_eq_true, if_false]

theorem exec_writeBurstServed_canonical {s t : State} (canonical : MemoryCanonical s)
    (e : exec .writeBurstServed s = .next t) : MemoryCanonical t := by
  cases active : activeWrite s with
  | none =>
    rw [exec_writeBurstServed_idle active] at e
    cases e
    exact canonical
  | some w =>
    cases fits : writeFits w with
    | false => rw [exec_writeBurstServed_fault active fits] at e; cases e
    | true =>
      rw [exec_writeBurstServed active fits] at e
      cases e
      unfold MemoryCanonical
      rw [finish_dram, writeServed_dram]
      exact writeBurstDots_wf canonical fits

/-- No command but POWER_ON and WRITE_BURST_SERVED touches the DRAM (`exec_dram`); POWER_ON empties it. -/
theorem exec_canonical {c : Instr} {s t : State} (canonical : MemoryCanonical s) (e : exec c s = .next t) :
    MemoryCanonical t := by
  by_cases power : c = .powerOn
  · subst power
    cases e
    rfl
  · by_cases served : c = .writeBurstServed
    · subst served
      exact exec_writeBurstServed_canonical canonical e
    · unfold MemoryCanonical
      rw [exec_dram power served e]
      exact canonical

/-- Settles O5: an empty queue leaves the state, and every command keeps the form (`exec_canonical`). -/
theorem stepKeepsMemoryCanonical : Obligations.StepKeepsMemoryCanonical := by
  intro s t canonical e
  unfold step at e
  split at e
  · cases e; exact canonical
  · rename_i c cs _
    exact exec_canonical (s := { s with pending := cs }) canonical e

/-! ### What an address reads (R71) -/

theorem dramRead_eq (m : List Host.Cell) (a : Nat) :
    dramRead m a = ((m.find? (fun c => c.1 == a)).map Prod.snd).getD 0 := by
  unfold dramRead
  cases m.find? (fun c => c.1 == a) <;> rfl

/-- The cells kept by their addresses answer for an address that is kept, and only for such a one. -/
theorem find?_filter_address (m : List Host.Cell) (p : Nat → Bool) (a : Nat) :
    (m.filter (fun c => p c.1)).find? (fun c => c.1 == a) = if p a then m.find? (fun c => c.1 == a) else none := by
  have narrow : (fun c : Host.Cell => decide (p c.1 = true ∧ (c.1 == a) = true)) = fun c => p a && c.1 == a := by
    funext c
    by_cases e : c.1 = a <;> simp [e]
  rw [List.find?_filter, narrow]
  cases p a <;> simp

theorem find?_runCells_outside {base a : Nat} {vs : List Byte} (outside : a < base ∨ base + vs.length ≤ a) :
    (runCells base vs).find? (fun c => c.1 == a) = none := by
  rw [List.find?_eq_none]
  intro c hc
  have inside := mem_runCells hc
  simp only [beq_iff_eq]
  omega

/-- A run reads as its bytes: a zero that it leaves out reads as zero. -/
theorem dramRead_runCells (vs : List Byte) (base i : Nat) : dramRead (runCells base vs) (base + i) = vs.getD i 0 := by
  induction vs generalizing base i with
  | nil => rfl
  | cons v vs ih =>
    cases i with
    | zero =>
      have later : (runCells (base + 1) vs).find? (fun c => c.1 == base) = none :=
        find?_runCells_outside (.inl (Nat.lt_succ_self base))
      rw [runCells, dramRead_eq]
      split
      · rename_i zero
        rw [Nat.add_zero, later, zero]
        rfl
      · simp
    | succ i =>
      have next : dramRead (runCells (base + 1) vs) (base + (i + 1)) = vs.getD i 0 := by
        rw [← ih (base + 1) i, Nat.add_right_comm, Nat.add_assoc]
      rw [runCells, List.getD_cons_succ, ← next, dramRead_eq, dramRead_eq]
      split <;> simp

/-- R71: after a run is written each of its addresses reads the run's byte, and every other address what it read before. -/
theorem dramRead_writeRun (m : List Host.Cell) (base : Nat) (vs : List Byte) (a : Nat) :
    dramRead (dramWriteRun m base vs) a
      = (if base ≤ a then vs[a - base]? else none).getD (dramRead m a) := by
  have below := find?_filter_address m (fun x => decide (x < base)) a
  have above := find?_filter_address m (fun x => decide (base + vs.length ≤ x)) a
  by_cases inside : base ≤ a ∧ a < base + vs.length
  · have run := dramRead_runCells vs base (a - base)
    rw [Nat.add_sub_cancel' inside.1, dramRead_eq, getD_inside (show a - base < vs.length by omega)] at run
    rw [if_pos inside.1, List.getElem?_eq_getElem (show a - base < vs.length by omega), Option.getD_some, ← run,
      dramRead_eq, dramWriteRun, List.find?_append, List.find?_append, below, above]
    simp [Nat.not_lt.2 inside.1, Nat.not_le.2 inside.2]
  · have apart : (if base ≤ a then vs[a - base]? else none) = none := by
      split
      · exact List.getElem?_eq_none (by omega)
      · rfl
    rw [apart, Option.getD_none, dramRead_eq, dramRead_eq, dramWriteRun, List.find?_append, List.find?_append, below,
      above, find?_runCells_outside (by omega)]
    by_cases low : a < base
    · simp [low, show ¬ base + vs.length ≤ a by omega]
    · simp [low, show base + vs.length ≤ a by omega]

/-! ### What a burst brings to an address (R71, log entry 5) -/

theorem dotAddress_eq (slot row column : Nat) : dotAddress slot row column = (slot * 4096 + row) * 4096 + column := by
  simp only [dotAddress, Config.slotBytes, Config.chipColumns]
  omega

/-- The rows written: `a / 4096` counts rows through the whole store, 4,096 of them to a slot. -/
theorem dramRead_writeRows {slot first a : Nat} {rows : List (List Byte)} {m : List Host.Cell}
    (short : ∀ l, l ∈ rows → l.length ≤ 4096) :
    dramRead (writeRows slot first rows m) a
      = (if slot * 4096 + first ≤ a / 4096 then
          (rows[a / 4096 - (slot * 4096 + first)]?).bind (fun l => l[a % 4096]?) else none).getD (dramRead m a) := by
  induction rows generalizing first m with
  | nil => simp [writeRows]
  | cons r rs ih =>
    have width : r.length ≤ 4096 := short r List.mem_cons_self
    rw [writeRows, ih (fun l hl => short l (List.mem_cons_of_mem _ hl)), dramRead_writeRun, dotAddress_eq]
    rcases Nat.lt_trichotomy (a / 4096) (slot * 4096 + first) with low | here | high
    · rw [if_neg (by omega), if_neg (by omega), if_neg (by omega)]
      rfl
    · rw [if_neg (by omega), if_pos (by omega), if_pos (by omega), here, Nat.sub_self,
        show a - ((slot * 4096 + first) * 4096 + 0) = a % 4096 by omega]
      rfl
    · rw [if_pos (by omega), if_pos (by omega), if_pos (by omega),
        List.getElem?_eq_none (show r.length ≤ a - ((slot * 4096 + first) * 4096 + 0) by omega),
        show a / 4096 - (slot * 4096 + first) = (a / 4096 - (slot * 4096 + (first + 1))) + 1 by omega]
      rfl

/-- One dot written. -/
theorem dramRead_writeDot {slot row column a : Nat} (v : Byte) (m : List Host.Cell) (inside : column < 4096) :
    dramRead (dramWriteRun m (dotAddress slot row column) [v]) a
      = if a % 4096 = column ∧ a / 4096 = slot * 4096 + row then v else dramRead m a := by
  rw [dramRead_writeRun, dotAddress_eq]
  by_cases here : a = (slot * 4096 + row) * 4096 + column
  · rw [if_pos (by omega), if_pos (by omega), here, Nat.sub_self]
    rfl
  · rw [if_neg (show ¬ (a % 4096 = column ∧ a / 4096 = slot * 4096 + row) by omega)]
    split
    · rw [List.getElem?_eq_none (by rw [List.length_singleton]; omega)]
      rfl
    · rfl

theorem dramRead_writeColumn {slot column row a : Nat} {vs : List Byte} {m : List Host.Cell} (inside : column < 4096) :
    dramRead (writeColumn slot column row vs m) a
      = (if a % 4096 = column ∧ slot * 4096 + row ≤ a / 4096 then vs[a / 4096 - (slot * 4096 + row)]?
          else none).getD (dramRead m a) := by
  induction vs generalizing row m with
  | nil => simp [writeColumn]
  | cons v vs ih =>
    rw [writeColumn, ih, dramRead_writeDot v m inside]
    rcases Nat.lt_trichotomy (a / 4096) (slot * 4096 + row) with low | here | high
    · rw [if_neg (by omega), if_neg (by omega), if_neg (by omega)]
    · rw [if_neg (by omega), Option.getD_none]
      by_cases aside : a % 4096 = column
      · rw [if_pos ⟨aside, here⟩, if_pos ⟨aside, Nat.le_of_eq here.symm⟩, here, Nat.sub_self]
        rfl
      · rw [if_neg (fun h => aside h.1), if_neg (fun h => aside h.1)]
        rfl
    · rw [if_neg (show ¬ (a % 4096 = column ∧ a / 4096 = slot * 4096 + row) by omega),
        show a / 4096 - (slot * 4096 + row) = (a / 4096 - (slot * 4096 + (row + 1))) + 1 by omega,
        List.getElem?_cons_succ]
      simp only [show slot * 4096 + (row + 1) ≤ a / 4096 by omega, show slot * 4096 + row ≤ a / 4096 by omega]

theorem dramRead_writeColumns {slot first a : Nat} {columns : List (List Byte)} {m : List Host.Cell}
    (inside : first + columns.length ≤ 4096) :
    dramRead (writeColumns slot first columns m) a
      = (if first ≤ a % 4096 ∧ slot * 4096 ≤ a / 4096 then
          (columns[a % 4096 - first]?).bind (fun l => l[a / 4096 - slot * 4096]?)
          else none).getD (dramRead m a) := by
  induction columns generalizing first m with
  | nil => simp [writeColumns]
  | cons c cs ih =>
    rw [List.length_cons] at inside
    rw [writeColumns, ih (by omega), dramRead_writeColumn (by omega), Nat.add_zero (slot * 4096)]
    rcases Nat.lt_trichotomy (a % 4096) first with low | here | high
    · rw [if_neg (by omega), if_neg (by omega), if_neg (by omega)]
      rfl
    · rw [if_neg (by omega), Option.getD_none]
      by_cases above : slot * 4096 ≤ a / 4096
      · rw [if_pos ⟨here, above⟩, if_pos ⟨Nat.le_of_eq here.symm, above⟩, here, Nat.sub_self]
        rfl
      · rw [if_neg (fun h => above h.2), if_neg (fun h => above h.2), Option.getD_none]
    · rw [if_neg (show ¬ (a % 4096 = first ∧ slot * 4096 ≤ a / 4096) by omega),
        show a % 4096 - first = (a % 4096 - (first + 1)) + 1 by omega, List.getElem?_cons_succ]
      simp only [show first + 1 ≤ a % 4096 by omega, show first ≤ a % 4096 by omega]
      rfl

theorem burstByte_rows {b : WriteBurst} {a : Nat} (axis : b.axis = .rows) (slot : a / 16777216 = b.slot) :
    burstByte b a = if b.first ≤ a % 16777216 / 4096 then
      (b.lines[a % 16777216 / 4096 - b.first]?).bind (fun l => l[a % 4096]?) else none := by
  unfold burstByte
  rw [if_pos (show a / Config.slotBytes = b.slot from slot), axis]
  rfl

theorem burstByte_columns {b : WriteBurst} {a : Nat} (axis : b.axis = .columns) (slot : a / 16777216 = b.slot) :
    burstByte b a = if b.first ≤ a % 4096 then
      (b.lines[a % 4096 - b.first]?).bind (fun l => l[a % 16777216 / 4096]?) else none := by
  unfold burstByte
  rw [if_pos (show a / Config.slotBytes = b.slot from slot), axis]
  rfl

theorem burstByte_elsewhere {b : WriteBurst} {a : Nat} (slot : a / 16777216 ≠ b.slot) : burstByte b a = none := by
  unfold burstByte
  exact if_neg slot

/-- R71, R99: after a burst that stays in its slot every address reads the byte the burst brings to it, and every address
outside the burst what it read before. The room of 4,096 rows and columns keeps the burst from the next slot. -/
theorem dramRead_writeBurstDots {b : WriteBurst} (fits : writeFits b = true) (m : List Host.Cell) (a : Nat) :
    dramRead (writeBurstDots b m) a = (burstByte b a).getD (dramRead m a) := by
  obtain ⟨_, last, short⟩ := (writeFits_iff b).1 fits
  have row : a / 4096 = a / 16777216 * 4096 + a % 16777216 / 4096 := by omega
  have small : a % 16777216 / 4096 < 4096 := by omega
  unfold writeBurstDots slotSide at *
  cases axis : b.axis with
  | rows =>
    refine (dramRead_writeRows short).trans (congrArg (Option.getD · _) ?_)
    rcases Nat.lt_trichotomy (a / 16777216) b.slot with low | here | high
    · rw [burstByte_elsewhere (by omega), if_neg (by omega)]
    · rw [burstByte_rows axis here, row, here, Nat.add_sub_add_left]
      simp only [Nat.add_le_add_iff_left]
    · rw [burstByte_elsewhere (by omega),
        List.getElem?_eq_none (show b.lines.length ≤ a / 4096 - (b.slot * 4096 + b.first) by omega), Option.bind_none,
        ite_self]
  | columns =>
    refine (dramRead_writeColumns last).trans (congrArg (Option.getD · _) ?_)
    rcases Nat.lt_trichotomy (a / 16777216) b.slot with low | here | high
    · rw [burstByte_elsewhere (by omega), if_neg (by omega)]
    · rw [burstByte_columns axis here, row, here, Nat.add_sub_cancel_left]
      simp only [Nat.le_add_right, and_true]
    · rw [burstByte_elsewhere (by omega)]
      split
      · cases column : b.lines[a % 4096 - b.first]? with
        | none => rfl
        | some l => exact List.getElem?_eq_none (by have := short l (List.mem_of_getElem? column); omega)
      · rfl

end Sys2Proof.Machine
end

section
/-! SUPPORT. Film records taken with no frame open: a header that waits through a wake or goes to DISCARDING, a LINE that is
discarded, a loss indication (R57 to R60, R66, R109). The statements O23, O24, O27 and O34. -/

namespace Sys2Proof.Machine

-- Checked one after another, as the tests are, to hold the memory and the threads down.
set_option Elab.async false

/-! ### Commands on a film record at the head (R56) -/

/-- A command that acts on what stands at the head completes with its effect. -/
theorem actOn_completes {α : Type} {c : Instr} {head : Option α} {op : α → State} {s u : State} {a : α}
    (e : exec c s = actOn head op s) (stands : head = some a) (effect : op a = u) :
    ∃ t, exec c s = .next t ∧ EndOfCommand u t := by
  subst stands effect
  exact ⟨_, e, finish_end _⟩

/-- A WAITING intake takes no film record. -/
theorem filmHead_waiting {s : State} (waits : s.rs.intake.waiting = true) : filmHead s = none := by
  unfold filmHead filmReady
  simp only [waits, Bool.not_true, Bool.and_false, Bool.false_and, Bool.false_eq_true, if_false]

theorem headerWaits_of_head {s : State} {h : Header} (head : headHeader s = some h) : headerWaits s = true := by
  unfold headerWaits
  rw [headHeader_film head]

/-- What may be taken from the head goes by the write burst being absent, not by the rest of the SC. -/
theorem filmHead_sc (s : State) {sc : Sc} (write : sc.write.isNone = s.sc.write.isNone) :
    filmHead { s with sc := sc } = filmHead s := by
  unfold filmHead filmReady
  rw [write]

/-! ### Loss indications and discarded lines (R57, R66) -/

/-- R66: with no frame open a LINE taken changes nothing. -/
theorem takeLineRecord_noFrame {s : State} (noFrame : ∀ f, s.rs.intake ≠ .receiving f) (n : Nat) (samples : List Byte) :
    takeLineRecord n samples s = s := by
  unfold takeLineRecord
  split
  · exact absurd ‹_› (noFrame _)
  all_goals rfl

/-- Settles O27: the LINE leaves the FIFO and nothing else changes; a WAITING intake takes none. -/
theorem lineDiscardedOutsideFrame : Obligations.LineDiscardedOutsideFrame := by
  intro s
  refine ⟨fun n samples head noFrame => ?_, fun waits => ?_⟩
  · exact actOn_completes (exec_line s) head (takeLineRecord_noFrame (s := taken s) noFrame n samples)
  · have nothing : headLine s = none := by
      unfold headLine
      rw [filmHead_waiting waits]
    rw [exec_line, nothing]
    rfl

theorem takeLoss_other {k : FilmKind} (h : k ≠ .frameHeader) (s : State) : takeLoss k s = popHead s := by
  cases k with
  | frameHeader => exact absurd rfl h
  | line => rfl
  | frameEnd => rfl
  | target => rfl

theorem takeLoss_noFrame {s : State} (noFrame : ∀ f, s.rs.intake ≠ .receiving f) :
    takeLoss .frameHeader s = lostHeader (popHead s) := by
  unfold takeLoss
  simp only
  split
  · exact absurd ‹_› (noFrame _)
  all_goals rfl

/-- Settles O34: by the kind that was lost. -/
theorem lossIndicationByKind : Obligations.LossIndicationByKind := by
  intro s k head
  refine ⟨fun other => ?_, ?_⟩
  · exact actOn_completes (exec_lossIndication s) head (takeLoss_other other (fresh s))
  · rintro rfl noFrame
    exact actOn_completes (exec_lossIndication s) head (takeLoss_noFrame (s := fresh s) noFrame)

/-! ### A header to DISCARDING (Table 4-3) -/

section Discarded
variable {s : State} {h : Header}

theorem takeHeader_badExtent (bad : h.wf = 0 ∨ h.hf = 0) :
    takeHeader h s = setIntake (.discarding .badHeader h.roll h.ordinal)
      (raiseNotice (headerNotice .frameLost h none 1) s) := by
  unfold takeHeader
  rw [if_pos bad]
  rfl

theorem extents_good (hw : h.wf ≠ 0) (hh : h.hf ≠ 0) : ¬ (h.wf = 0 ∨ h.hf = 0) := by
  rintro (e | e) <;> contradiction

theorem takeHeader_leader (hw : h.wf ≠ 0) (hh : h.hf ≠ 0) (leader : 1 ≤ h.ordinal ∧ h.ordinal ≤ 4) :
    takeHeader h s = setIntake (.discarding .leader h.roll h.ordinal) s := by
  have found : classify s.mu h = .leader := by
    unfold classify
    rw [if_pos ((isLeader_iff h.ordinal).2 leader)]
  unfold takeHeader
  rw [if_neg (extents_good hw hh), found]
  rfl

theorem takeHeader_superseded (hw : h.wf ≠ 0) (hh : h.hf ≠ 0) {p : Nat} {m : Matched}
    (found : classify s.mu h = .superseded p m) :
    takeHeader h s = setIntake (.discarding .superseded h.roll h.ordinal)
      (raiseNotice (headerNotice .supersededSkipped h (some m) p) (evaluateHeader h (some m) s)) := by
  unfold takeHeader
  rw [if_neg (extents_good hw hh), found]
  rfl

theorem floorTest_rejects {m : Option Matched} (thin : h.db < s.dm.floor) (rf : Nat) :
    floorTest h m rf (evaluateHeader h m s) = setIntake (.discarding .floor h.roll h.ordinal)
      (raiseNotice (headerNotice .floorReject h m h.db) (evaluateHeader h m s)) := by
  have floor : (evaluateHeader h m s).dm.floor = s.dm.floor := by rw [(evaluateHeader_raisesOnly h m s).dm]; rfl
  unfold floorTest
  rw [if_pos (by rw [floor]; exact thin)]
  rfl

theorem takeHeader_tooThin (hw : h.wf ≠ 0) (hh : h.hf ≠ 0) {m : Option Matched} (thin : h.db < s.dm.floor)
    (found : (∃ p x, classify s.mu h = .indexed p x ∧ m = some x) ∨ (∃ rf, classify s.mu h = .unindexed rf ∧ m = none)) :
    takeHeader h s = setIntake (.discarding .floor h.roll h.ordinal)
      (raiseNotice (headerNotice .floorReject h m h.db) (evaluateHeader h m s)) := by
  unfold takeHeader
  rw [if_neg (extents_good hw hh)]
  rcases found with ⟨p, x, e, rfl⟩ | ⟨rf, e, rfl⟩ <;> rw [e] <;> exact floorTest_rejects thin _

end Discarded

/-- Settles O24: a header taken with no frame open is `takeHeader`, whose discarding outcomes are the lemmas above. -/
theorem headerToDiscarding : Obligations.HeaderToDiscarding := by
  intro s h head active noFrame
  have completes := frameHeader_taken head active noFrame
  exact ⟨fun bad => completes_setsOff completes (takeHeader_badExtent bad),
    fun hw hh leader => completes_setsOff completes (takeHeader_leader hw hh leader),
    fun p m hw hh found => completes_setsOff completes (takeHeader_superseded hw hh found),
    fun m hw hh thin found => completes_setsOff completes (takeHeader_tooThin hw hh thin found)⟩

/-! ### A wake (R58, R109) -/

@[simp] theorem evaluateHeader_mode (h : Header) (m : Option Matched) (s : State) :
    (evaluateHeader h m s).sc.mode = s.sc.mode := by
  rw [(evaluateHeader_raisesOnly h m s).sc]

@[simp] theorem noticeClamped_sc (g : Geometry) (h : Header) (m : Option Matched) (s : State) :
    (noticeClamped g h m s).sc = s.sc := by
  unfold noticeClamped
  split <;> simp

@[simp] theorem setUp_mode (h : Header) (m : Option Matched) (rf : Nat) (s : State) :
    (setUp h m rf s).sc.mode = s.sc.mode := by
  unfold setUp
  simp

@[simp] theorem floorTest_mode (h : Header) (m : Option Matched) (rf : Nat) (s : State) :
    (floorTest h m rf s).sc.mode = s.sc.mode := by
  unfold floorTest
  split
  · simp [discardFrame]
  · exact setUp_mode h m rf s

/-- A header that is taken leaves the store mode alone. -/
@[simp] theorem takeHeader_mode (h : Header) (s : State) : (takeHeader h s).sc.mode = s.sc.mode := by
  unfold takeHeader
  repeat' split
  all_goals simp [rejectHeader, skipSuperseded, discardFrame]

/-- The end of a command leaves the mode of a store that is not RETAINING. -/
theorem finish_mode {s : State} (awake : s.sc.mode ≠ .retaining) : (finish s).sc.mode = s.sc.mode := by
  rw [((finish_end s).rest (.inl awake)).1]

/-- R58: a header that meets a store not ACTIVE stays at the head, and the store is WAKING. -/
theorem exec_frameHeader_asleep {s : State} {h : Header} (head : headHeader s = some h) (asleep : s.sc.mode ≠ .active) :
    exec .frameHeader s = .next (finish (fresh s)) := by
  simp only [exec, execFrameHeader, head, asleep, if_false]

theorem finish_header_wakes {s : State} {h : Header} (head : headHeader s = some h) (asleep : s.sc.mode ≠ .active) :
    (finish (fresh s)).sc.mode = .waking := by
  cases mode : s.sc.mode with
  | active => exact absurd mode asleep
  | retaining =>
    rw [(finish_end (fresh s)).mode mode, if_pos (headerWaits_of_head (s := fresh s) head)]
  | waking =>
    have awake : (fresh s).sc.mode ≠ .retaining := by rw [fresh_sc, mode]; nofun
    rw [finish_mode awake, fresh_sc, mode]

/-- The part at the end of a wake, before a header is taken (R109). -/
def awake (s : State) : State := { fresh s with sc := storeSettle { s.sc with mode := .active } }

theorem filmHead_awake (s : State) : filmHead (awake s) = filmHead s :=
  filmHead_sc (fresh s) (storeSettle_write_isNone { s.sc with mode := .active })

theorem endWake_header {s : State} {h : Header} (head : headHeader s = some h) :
    endWake (fresh s) = settle (takeHeader h (popHead (awake s))) := by
  have film : filmHead (awake s) = some (.film (.header h)) := (filmHead_awake s).trans (headHeader_film head)
  unfold endWake
  extract_lets _ s1
  rw [show filmHead s1 = some (.film (.header h)) from film]
  rfl

theorem endWake_noHeader {s : State} (absent : headHeader s = none) : endWake (fresh s) = awake s := by
  unfold endWake
  extract_lets _ s1
  split
  · rename_i h film
    have head : headHeader s = some h := by
      unfold headHeader
      rw [← filmHead_awake, show filmHead (awake s) = some (.film (.header h)) from film]
    rw [absent] at head
    cases head
  · rfl

theorem endWake_active (s : State) : (endWake (fresh s)).sc.mode = .active := by
  have mode : (awake s).sc.mode = .active := storeSettle_mode _
  cases head : headHeader s with
  | none => rw [endWake_noHeader head, mode]
  | some h => rw [endWake_header head, settle_mode, takeHeader_mode, popHead_sc, mode]

theorem exec_wakeEnd {s : State} (waking : s.sc.mode = .waking) :
    exec .wakeEnd s = .next (finish (endWake (fresh s))) := by
  simp only [exec, execWakeEnd, waking, if_true]

/-- R169: an ACTIVE store asks for no HOLD. -/
theorem holdState_active {s : State} (active : s.sc.mode = .active) :
    holdState s = (s.fli.holdFifo || s.mu.startup == .loading) := by
  unfold holdState
  rw [active]
  cases s.fli.holdFifo <;> rfl

/-- Settles O23: a store not ACTIVE keeps the header and wakes; an ACTIVE one takes it; the end of a wake takes a header that
stands at the head, and with none there only the SC goes on. -/
theorem wakeHoldsHeader : Obligations.WakeHoldsHeader := by
  refine ⟨fun s h head asleep => ?held, fun s h head active noFrame => ?taken, fun s waking => ?woken⟩
  case held =>
    have e := finish_end (fresh s)
    exact ⟨_, exec_frameHeader_asleep head asleep, finish_header_wakes head asleep, e.rs, e.core.dm, e.core.fifo,
      e.core.headMarks⟩
  case taken => exact ⟨_, frameHeader_taken head active noFrame, finish_settle_setsOff _⟩
  case woken =>
    have mode : (finish (endWake (fresh s))).sc.mode = .active := by
      rw [finish_mode] <;> rw [endWake_active]
      nofun
    refine ⟨_, exec_wakeEnd waking, mode, holdState_active mode, fun absent => ?_, fun h head _ => ?_,
      fun h head _ hw hh leader => ?_⟩
    · rw [endWake_noHeader absent]
      exact finish_end _
    · rw [endWake_header head]
      exact finish_settle_setsOff _
    · rw [endWake_header head, takeHeader_leader hw hh leader]
      exact finish_settle_setsOff _

end Sys2Proof.Machine
end

section
/-! SUPPORT. What the Resampler does with a LINE, a FRAME END and the record that ends a frame implicitly, while RECEIVING
(R57, R60, R65 to R77). The statements O28, O29 and O30. -/

namespace Sys2Proof.Machine

-- Checked one after another, as the tests are, to hold the memory and the threads down.
set_option Elab.async false

/-! ### One piece of work up to its burst -/

section Work
variable {s : State} {f : FrameCtx} {g : Geometry} {k : Nat}

/-- R67: the expected line filled, where it has a band. -/
theorem fillLine_burst {b : WriteBurst} {c : Carry}
    (band : mapLine g k f.depth f.margin f.carry f.expected (List.replicate f.wf 0) = some (b, c)) :
    fillLine f g k s = { s with
      rs := { s.rs with intake := .receiving { f.gapped with expected := f.expected + 1, carry := some c } }
      sc := { enterGapped k s.sc with write := some b } } := by
  unfold fillLine placeLine filledInks
  rw [show mapLine g k f.gapped.depth f.gapped.margin f.gapped.carry f.gapped.expected (List.replicate f.wf 0)
    = some (b, c) from band]
  rfl

/-- R67: a fill begins with the expected line and stops at its burst. -/
theorem advance_fill {limit : Nat} {b : WriteBurst} {c : Carry} (write : s.sc.write = none)
    (intake : s.rs.intake = .receiving f) (geometry : s.rs.geometry = some g) (slot : f.slot = some k)
    (fills : FillsBelow limit s.rs.work f.hf g k) (below : f.expected < limit)
    (band : mapLine g k f.depth f.margin f.carry f.expected (List.replicate f.wf 0) = some (b, c)) :
    advance s = receivingWith { f.gapped with expected := f.expected + 1, carry := some c } s.rs.work
      { enterGapped k s.sc with write := some b } s := by
  have step : workStep f g (f.slot.getD 0) s = some (fillLine f g k s) := by
    rw [slot]
    exact fills s f rfl rfl below
  rw [fillLine_burst band] at step
  exact advance_burst write intake geometry step rfl

/-- R65, R68: the expected LINE is placed: its burst is asked for, unless its band is empty. -/
theorem advance_expected {samples : List Byte} (write : s.sc.write = none) (intake : s.rs.intake = .receiving f)
    (geometry : s.rs.geometry = some g) (slot : f.slot = some k) (work : s.rs.work = .line f.expected samples)
    (f1 : FrameCtx) (sc1 : Sc)
    (placed : (f1, sc1) = if samples = [] ∨ samples.length < f.wf then (f.gapped, enterGapped k s.sc) else (f, s.sc)) :
    (∀ b c, mapLine g k f.depth f.margin f.carry f.expected (lineInks (s.rs.tone.getD []) f.wf samples) = some (b, c) →
      advance s = receivingWith { f1 with expected := f.expected + 1, carry := some c } .none
        { sc1 with write := some b } s)
    ∧ (mapLine g k f.depth f.margin f.carry f.expected (lineInks (s.rs.tone.getD []) f.wf samples) = none →
      advance s = receivingWith { f1 with expected := f.expected + 1 } .none sc1 s) := by
  obtain ⟨burst, empty⟩ := runWork_place (m := 16399) write intake geometry slot work rfl f1 sc1 placed
  unfold advance
  refine ⟨fun b c band => ?_, fun band => ?_⟩
  · rw [show runWork workFuel s = _ from burst b c band]
    rfl
  · rw [show runWork workFuel s = _ from empty band]
    rfl

/-- R75 steps 2 and 3: with every line placed the lines-sent check is made and the first closing burst issued. -/
theorem advance_closing {sent : Option Nat} {b : Nat × Nat} {bs : List (Nat × Nat)} (write : s.sc.write = none)
    (intake : s.rs.intake = .receiving f) (geometry : s.rs.geometry = some g) (slot : f.slot = some k)
    (work : s.rs.work = .fill sent) (placed : f.hf ≤ f.expected) (closing : closingBursts g = b :: bs)
    (f1 : FrameCtx) (sc1 : Sc)
    (checked : (f1, sc1) = if sent.any (fun n => decide (f.records < n)) = true then (f.gapped, enterGapped k s.sc)
      else (f, s.sc)) :
    advance s = receivingWith f1 (.margins sent.isNone bs)
      { sc1 with write := some (marginBurst g k f.depth f.margin b.1 b.2) } s := by
  have begun := (runWork_margins_begin (m := 16398) write intake geometry slot work placed f1 sc1 checked).1 b bs closing
  unfold advance
  rw [show runWork workFuel s = _ from begun]
  cases bs <;> rfl

end Work

/-! ### A LINE while RECEIVING (R65) -/

/-- R65: one more LINE is counted, up to 65,535. -/
def FrameCtx.counted (f : FrameCtx) : FrameCtx := { f with records := min 65535 (f.records + 1) }

/-- R68: GAPPED is set when the LINE is short. -/
def FrameCtx.withLine (f : FrameCtx) (samples : List Byte) : FrameCtx := if samples.length < f.wf then f.gapped else f

/-- The intake with a LINE counted and taken for work. -/
def lineTaken (f : FrameCtx) (n : Nat) (samples : List Byte) (s : State) : State :=
  setWork (.line n samples) (setIntake (.receiving f.counted) s)

theorem takeLineRecord_receiving {s : State} {f : FrameCtx} (intake : s.rs.intake = .receiving f) (n : Nat)
    (samples : List Byte) : takeLineRecord n samples s =
      if f.expected ≤ n ∧ n < f.hf then advance (lineTaken f n samples s) else setIntake (.receiving f.counted) s := by
  unfold takeLineRecord
  rw [intake]
  rfl

theorem receivingWith_noWork {s : State} (noWork : s.rs.work = .none) (f : FrameCtx) (sc : Sc) :
    receivingWith f .none sc s = { s with rs := { s.rs with intake := .receiving f }, sc := storeSettle sc } := by
  unfold receivingWith
  rw [← noWork]

/-- What comes of a LINE does not go by the count and the work that its taking left. -/
theorem LineHandled.ofTaken {s t : State} {f f' : FrameCtx} {g : Geometry} {k n m : Nat} {samples xs : List Byte}
    (h : LineHandled (lineTaken f m xs s) f' g k n samples t) : LineHandled s f' g k n samples t := ⟨h.fill, h.place⟩

/-- Settles O28: a LINE out of the range of the work is counted, the expected one is placed (`advance_expected`), one above it
begins with a fill (`advance_fill`), and every one that is worked on is handled as `advance_line` says. -/
theorem lineByNumber : Obligations.LineByNumber := by
  intro s f n samples head intake
  obtain ⟨_, _, noWork, write⟩ := filmHead_ready (headLine_film head)
  have taken_eq := takeLineRecord_receiving (s := taken s) intake n samples
  refine ⟨fun out => ?outside, fun g k geometry slot => ⟨?expected, ?gap, ?handled⟩⟩
  case outside =>
    rw [if_neg (by omega)] at taken_eq
    exact actOn_completes (exec_line s) head taken_eq
  case expected =>
    rintro rfl below sampled f1 sc1 hf1 hsc1
    rw [if_pos ⟨Nat.le_refl _, below⟩] at taken_eq
    have frame : f1 = { f.counted.withLine samples with expected := f.expected + 1 } := by
      unfold FrameCtx.withLine
      by_cases short : samples.length < f.wf
      · rw [hf1, if_pos short, if_pos (show samples.length < f.counted.wf from short)]
        rfl
      · rw [hf1, if_neg short, if_neg (show ¬ samples.length < f.counted.wf from short)]
        rfl
    have placed : (f.counted.withLine samples, sc1) = if samples = [] ∨ samples.length < f.counted.wf then
        (f.counted.gapped, enterGapped k (lineTaken f f.expected samples (taken s)).sc)
        else (f.counted, (lineTaken f f.expected samples (taken s)).sc) := by
      rw [hsc1]
      by_cases short : samples.length < f.wf <;> simp [FrameCtx.withLine, short, sampled, FrameCtx.counted, lineTaken, taken]
    obtain ⟨burst, empty⟩ := advance_expected (s := lineTaken f f.expected samples (taken s)) (f := f.counted) write rfl
      geometry slot rfl (f.counted.withLine samples) sc1 placed
    rw [frame]
    have noWork : (taken s).rs.work = .none := noWork
    exact ⟨fun b c band => actOn_completes (exec_line s) head
        ((taken_eq.trans (burst b c band)).trans (receivingWith_noWork noWork _ _)),
      fun band => actOn_completes (exec_line s) head
        ((taken_eq.trans (empty band)).trans (receivingWith_noWork noWork _ _))⟩
  case gap =>
    intro b c above below band
    rw [if_pos ⟨Nat.le_of_lt above, below⟩] at taken_eq
    have effect := advance_fill (s := lineTaken f n samples (taken s)) (f := f.counted) write rfl geometry slot
      (fillsBelow_line n f.counted.hf samples g k) above band
    exact actOn_completes (exec_line s) head (taken_eq.trans effect)
  case handled =>
    intro above below range
    rw [if_pos ⟨above, below⟩] at taken_eq
    have handled := advance_line (s := lineTaken f n samples (taken s)) (f := f.counted) write rfl geometry slot rfl above
      (by omega)
    refine ⟨_, ?_, handled.ofTaken⟩
    rw [exec_line, head, ← taken_eq]
    rfl

/-! ### A FRAME END (R75) -/

/-- The work of a close does not go by what the RS worked on before. -/
theorem CloseHandled.ofWork {s t : State} {f : FrameCtx} {g : Geometry} {k : Nat} {w : Work} {sent : Option Nat}
    (h : CloseHandled (setWork w s) f g k sent t) : CloseHandled s f g k sent t := ⟨h.fill, h.margins⟩

theorem takeFrameEndRecord_receiving {s : State} {f : FrameCtx} (intake : s.rs.intake = .receiving f) (sent : Nat) :
    takeFrameEndRecord sent s = advance (setWork (.fill (some sent)) s) := by
  unfold takeFrameEndRecord
  rw [intake]
  rfl

/-- Settles O29: by the intake state; while RECEIVING by `advance_closing` with every line placed, and by `advance_close` with
lines outstanding too. -/
theorem frameEndCloses : Obligations.FrameEndCloses := by
  intro s sent head
  obtain ⟨_, _, _, write⟩ := filmHead_ready (headFrameEnd_film head)
  refine ⟨fun idle => ?idle, fun why roll ordinal discarding => ?discarding,
    fun f g k b bs intake geometry slot placed closing => ?placed, fun f g k intake geometry slot range => ?outstanding⟩
  case idle =>
    refine actOn_completes (exec_frameEnd s) head ?_
    unfold takeFrameEndRecord
    rw [show (taken s).rs.intake = .idle from idle]
  case discarding =>
    refine actOn_completes (exec_frameEnd s) head ?_
    unfold takeFrameEndRecord
    rw [show (taken s).rs.intake = .discarding why roll ordinal from discarding]
  case placed =>
    have taken_eq := takeFrameEndRecord_receiving (s := taken s) intake sent
    have effect := advance_closing (s := setWork (.fill (some sent)) (taken s)) write intake geometry slot rfl placed closing
      (if f.records < sent then f.gapped else f) (if f.records < sent then enterGapped k s.sc else s.sc) (by
        by_cases short : f.records < sent <;> simp [short, taken])
    exact actOn_completes (exec_frameEnd s) head (taken_eq.trans effect)
  case outstanding =>
    have taken_eq := takeFrameEndRecord_receiving (s := taken s) intake sent
    have handled := advance_close (s := setWork (.fill (some sent)) (taken s)) write intake geometry slot rfl range
    refine ⟨_, ?_, handled.ofWork⟩
    rw [exec_frameEnd, head, ← taken_eq]
    rfl

/-! ### An implicit end (R57, R60, R76, R77) -/

/-- The commands that end the open frame implicitly, each with its record at the head (R57, R60, R77). -/
def EndsFrame (s : State) (i : Instr) : Prop :=
  (i = .frameHeader ∧ (headHeader s).isSome = true ∧ s.sc.mode = .active)
    ∨ (i = .start ∧ (headTarget .start s).isSome = true)
    ∨ (i = .endTarget ∧ (headTarget .endSet s).isSome = true)
    ∨ (i = .batchEnd ∧ (headTarget .batchEnd s).isSome = true)
    ∨ (i = .lossIndication ∧ headLoss s = some .frameHeader)

theorem takeTarget_receiving {s : State} {f : FrameCtx} (intake : s.rs.intake = .receiving f) (x : Target) :
    takeTarget x s = implicitEnd f s := by
  unfold takeTarget
  rw [intake]

/-- Each of them takes nothing from the FIFO while RECEIVING, and begins the close (log entry 7). -/
theorem exec_implicitEnd {s : State} {f : FrameCtx} {i : Instr} (ends : EndsFrame s i) (intake : s.rs.intake = .receiving f) :
    (∃ c, filmHead s = some c) ∧ exec i s = .next (finish (implicitEnd f (fresh s))) := by
  have target (x : Target) : takeTarget x (fresh s) = implicitEnd f (fresh s) := takeTarget_receiving (s := fresh s) intake x
  rcases ends with ⟨rfl, stands, active⟩ | ⟨rfl, stands⟩ | ⟨rfl, stands⟩ | ⟨rfl, stands⟩ | ⟨rfl, head⟩
  · obtain ⟨h, head⟩ := Option.isSome_iff_exists.1 stands
    refine ⟨⟨_, headHeader_film head⟩, ?_⟩
    simp only [exec, execFrameHeader, head, active, if_true, takeFrameHeader, fresh_rs, intake]
  · obtain ⟨x, head⟩ := Option.isSome_iff_exists.1 stands
    refine ⟨⟨_, (headTarget_film head).1⟩, ?_⟩
    rw [exec_start, head, ← target x]
    rfl
  · obtain ⟨x, head⟩ := Option.isSome_iff_exists.1 stands
    refine ⟨⟨_, (headTarget_film head).1⟩, ?_⟩
    rw [exec_endTarget, head, ← target x]
    rfl
  · obtain ⟨x, head⟩ := Option.isSome_iff_exists.1 stands
    refine ⟨⟨_, (headTarget_film head).1⟩, ?_⟩
    rw [exec_batchEnd, head, ← target x]
    rfl
  · refine ⟨⟨_, headLoss_film head⟩, ?_⟩
    have lost : takeLoss .frameHeader (fresh s) = implicitEnd f (fresh s) := by
      simp only [takeLoss, fresh_rs, intake]
    rw [exec_lossIndication, head, ← lost]
    rfl

/-- Settles O30: each cause begins the close with no lines-sent count (`exec_implicitEnd`); the trailing fill up to its first
burst is `advance_fill`, and the close as a whole `advance_close`. -/
theorem implicitEndBegins : Obligations.ImplicitEndBegins := by
  intro s f g k i intake geometry slot ends
  obtain ⟨⟨_, film⟩, completes⟩ := exec_implicitEnd ends intake
  obtain ⟨_, _, _, write⟩ := filmHead_ready film
  generalize hu : raiseNotice (frameNotice .frameUnterminated f (f.hf - f.expected)) (fresh s) = u
  have rs : u.rs = s.rs := by rw [← hu, raiseNotice_rs, fresh_rs]
  have sc : u.sc = s.sc := by rw [← hu, raiseNotice_sc, fresh_sc]
  have close : implicitEnd f (fresh s) = advance (setWork (.fill none) u) := by rw [← hu]; rfl
  rw [← sc] at write
  rw [← rs] at intake geometry
  refine ⟨fun b c below band => ?_, fun range => ?_⟩
  · have effect := advance_fill (s := setWork (.fill none) u) write intake geometry slot
      (fillsBelow_fill none f.hf g k) below band
    refine completes_command completes ((close.trans effect).trans ?_)
    rw [← rs, ← sc]
    rfl
  · have handled := advance_close (s := setWork (.fill none) u) write intake geometry slot rfl range
    rw [← close] at handled
    exact ⟨_, completes, handled.ofWork⟩

end Sys2Proof.Machine
end

section
/-! SUPPORT. WRITE_BURST_SERVED: what the part does when a write burst has ended (R60, R67, R71, R74 to R79, R98, R99). The
statement O36. -/

namespace Sys2Proof.Machine

-- Checked one after another, as the tests are, to hold the memory and the threads down.
set_option Elab.async false

/-! ### The end of a write burst -/

/-- The part with the burst's dots written and no write burst left (R71, R99). -/
def burstEnded (w : WriteBurst) (s : State) : State :=
  { fresh s with sc := { s.sc with write := none, dram := writeBurstDots w s.sc.dram } }

/-- R74: the RS goes on after the burst of a frame that still stands. -/
theorem writeServed_goesOn {w : WriteBurst} (stands : w.aborted = false) (s : State) :
    writeServed w (fresh s) = advance (burstEnded w s) := by
  unfold writeServed endWrite
  simp only [stands, Bool.false_eq_true, if_false]
  rfl

/-- R79, R98: the slot of an aborted frame is given back. -/
theorem writeServed_aborted {w : WriteBurst} (aborted : w.aborted = true) (s : State) :
    writeServed w (fresh s) = settle { burstEnded w s with sc := freeSlot w.slot (burstEnded w s).sc } := by
  unfold writeServed endWrite
  simp only [aborted, if_true]
  rfl

/-- R74: with no work left only the SC goes on. -/
theorem advance_noWork {u : State} (noWork : u.rs.work = .none) : advance u = storeOnly u := by
  unfold advance
  rw [runWork_none noWork]
  simp only [noWork]

/-- R75 step 3: the next closing burst is issued. -/
theorem advance_nextClosing {u : State} {f : FrameCtx} {g : Geometry} {k : Nat} {i : Bool} {b : Nat × Nat}
    {bs : List (Nat × Nat)} (write : u.sc.write = none) (intake : u.rs.intake = .receiving f)
    (geometry : u.rs.geometry = some g) (slot : f.slot = some k) (work : u.rs.work = .margins i (b :: bs)) :
    advance u = { u with
      rs := { u.rs with work := .margins i bs }
      sc := storeSettle { u.sc with write := some (marginBurst g k f.depth f.margin b.1 b.2) } } := by
  have step : workStep f g (f.slot.getD 0) u
      = some (setWork (.margins i bs) { u with sc := askWrite (marginBurst g k f.depth f.margin b.1 b.2) u.sc }) := by
    simp only [workStep, work, slot, Option.getD_some]
  exact advance_burst write intake geometry step rfl

section Served
variable {s : State} {w : WriteBurst}

theorem served_goesOn (active : activeWrite s = some w) (fits : writeFits w = true) (stands : w.aborted = false) :
    exec .writeBurstServed s = .next (finish (advance (burstEnded w s))) := by
  rw [exec_writeBurstServed active fits, writeServed_goesOn stands]

theorem served_aborted (active : activeWrite s = some w) (fits : writeFits w = true) (aborted : w.aborted = true) :
    exec .writeBurstServed s
      = .next (finish (settle { burstEnded w s with sc := freeSlot w.slot (burstEnded w s).sc })) := by
  rw [exec_writeBurstServed active fits, writeServed_aborted aborted]

theorem served_dram (active : activeWrite s = some w) (fits : writeFits w = true) :
    ∃ t, exec .writeBurstServed s = .next t ∧ ∀ a, dramRead t.sc.dram a = (burstByte w a).getD (dramRead s.sc.dram a) := by
  refine ⟨_, exec_writeBurstServed active fits, fun a => ?_⟩
  rw [finish_dram, writeServed_dram, fresh_sc]
  exact dramRead_writeBurstDots fits s.sc.dram a

end Served

/-! ### A target taken with no frame open (R77) -/

theorem takeTarget_noFrame {s : State} (noFrame : ∀ f, s.rs.intake ≠ .receiving f) (x : Target) :
    takeTarget x s = settle (targetOp x (popHead s)) := by
  unfold takeTarget
  split
  · exact absurd ‹_› (noFrame _)
  all_goals rfl

theorem target_completes {s : State} {k : TargetKind} {x : Target} {i : Instr} (head : headTarget k s = some x)
    (noFrame : ∀ f, s.rs.intake ≠ .receiving f)
    (row : (i = .start ∧ k = .start) ∨ (i = .endTarget ∧ k = .endSet) ∨ (i = .batchEnd ∧ k = .batchEnd)) :
    ∃ t, exec i s = .next t ∧ SetsOff (targetOp x (taken s)) t := by
  have effect : takeTarget x (fresh s) = settle (targetOp x (taken s)) := takeTarget_noFrame (s := fresh s) noFrame x
  refine completes_setsOff ?_ rfl
  rw [← effect]
  rcases row with ⟨rfl, rfl⟩ | ⟨rfl, rfl⟩ | ⟨rfl, rfl⟩
  · rw [exec_start, head]; rfl
  · rw [exec_endTarget, head]; rfl
  · rw [exec_batchEnd, head]; rfl

/-- Settles O36: the bytes by `dramRead_writeBurstDots`, and what follows by the work that is left. -/
theorem writeBurstServed : Obligations.WriteBurstServed := by
  refine ⟨fun s k x i head noFrame row => target_completes head noFrame row, fun s w active => ⟨?fault, ?bytes, ?line,
    ?closing, ?left⟩⟩
  case fault => exact exec_writeBurstServed_fault active
  case bytes => exact fun fits _ => served_dram active fits
  case line =>
    intro fits stands noWork
    exact completes_command (served_goesOn active fits stands) (advance_noWork noWork)
  case closing =>
    intro f g k i b bs fits stands intake geometry slot work
    exact completes_command (served_goesOn active fits stands) (advance_nextClosing rfl intake geometry slot work)
  case left =>
    rintro v rfl fits
    refine ⟨fun aborted => ?_, fun i stands work => ?_, fun f g k stands intake geometry slot range =>
      ⟨fun n samples work above below => ?_, fun sent work => ?_⟩⟩
    · exact completes_setsOff (served_aborted active fits aborted) rfl
    · exact ⟨_, served_goesOn active fits stands, advance_filed rfl work⟩
    · exact ⟨_, served_goesOn active fits stands, advance_line rfl intake geometry slot work above (by omega)⟩
    · exact ⟨_, served_goesOn active fits stands, advance_close rfl intake geometry slot work range⟩

end Sys2Proof.Machine
end

section
/-! SUPPORT. The filing of a closed frame: the slot, and what the SAU or the Card Queue takes of the frame (R75 step 4, R91, R92,
R121, R123, R124). The statements O37 and O38. -/

namespace Sys2Proof.Machine

-- Checked one after another, as the tests are, to hold the memory and the threads down.
set_option Elab.async false

/-! ### One slot written (R90 to R92) -/

section Slots
variable {sc : Sc} {n k : Nat}

theorem slotAt_setSlot_same (v : Slot) (inside : n < sc.slots.length) : slotAt (setSlot n v sc) n = v := by
  unfold slotAt setSlot
  rw [getD_inside (by simpa using inside), List.getElem_set_self]

theorem slotAt_setSlot_other (v : Slot) (apart : n ≠ k) : slotAt (setSlot n v sc) k = slotAt sc k :=
  getD_set_other v apart

@[simp] theorem setSlot_slots_length (n : Nat) (v : Slot) (sc : Sc) : (setSlot n v sc).slots.length = sc.slots.length :=
  List.length_set

/-- R91, R92: a slot in the state asked for passes to the next one. -/
theorem moveSlot_held {before : ChipState} {chip : Chip} (stands : slotAt sc n = .held before chip) (after : ChipState)
    (change : Chip → Chip) : moveSlot n before after change sc = setSlot n (.held after (change chip)) sc := by
  unfold moveSlot
  rw [stands]
  exact if_pos rfl

theorem moveSlot_other {before after : ChipState} (change : Chip → Chip) (apart : n ≠ k) :
    slotAt (moveSlot n before after change sc) k = slotAt sc k := by
  unfold moveSlot
  split
  · split
    · exact slotAt_setSlot_other _ apart
    · rfl
  all_goals rfl

@[simp] theorem moveSlot_slots_length (n : Nat) (before after : ChipState) (change : Chip → Chip) (sc : Sc) :
    (moveSlot n before after change sc).slots.length = sc.slots.length := by
  unfold moveSlot
  split
  · split
    · exact setSlot_slots_length ..
    · rfl
  all_goals rfl

/-- R92: a FREE slot after its chip is given back, in an enabled bank. -/
theorem slotAt_freeSlot (inside : n < sc.slots.length) (enabled : bankOf n < sc.banks) : slotAt (freeSlot n sc) n = .free := by
  unfold freeSlot
  rw [if_pos enabled, slotAt_setSlot_same _ inside]

@[simp] theorem freeReplaced_slots_length (p : SheetPos) (sc : Sc) :
    (freeReplaced p sc).slots.length = sc.slots.length := by
  unfold freeReplaced
  split
  · exact setSlot_slots_length ..
  all_goals rfl

/-- R121: the slot a retake replaces is another than the frame's. -/
theorem freeReplaced_other {p : SheetPos} (apart : ∀ roll ordinal flags, p ≠ .filed k roll ordinal flags) :
    slotAt (freeReplaced p sc) k = slotAt sc k := by
  unfold freeReplaced
  split
  · rename_i old roll ordinal flags
    refine slotAt_setSlot_other _ ?_
    rintro rfl
    exact apart roll ordinal flags rfl
  all_goals rfl

theorem fileSlot_filling {chip : Chip} (filling : slotAt sc k = .held .filling chip) (owner : Owner)
    (enter : CardFlags → CardFlags) :
    fileSlot k owner enter sc = setSlot k (.held .filed { chip with owner := owner, flags := enter chip.flags }) sc :=
  moveSlot_held filling ..

theorem flagsAt_held {state : ChipState} {chip : Chip} (stands : slotAt sc k = .held state chip) :
    flagsAt sc k = chip.flags := by
  unfold flagsAt chipAt
  rw [stands]
  rfl

end Slots

/-! ### Into the OPEN record (R121) -/

/-- The flags that the filing into a record enters: RETAKE over a take already there, EXTRA above the sheet count. -/
def setFlags (r : SetRecord) (m : Matched) (g : CardFlags) : CardFlags :=
  { g with
    retake := g.retake || (r.sheets.getD (m.sheet - 1) .empty).present
    extra := g.extra || decide ((r.title.map Title.sheetCount).getD m.sheetCount < m.sheet) }

/-- The record with the frame at its sheet, its title taken from the first frame. -/
def recordWith (k : Nat) (f : FrameCtx) (m : Matched) (flags : CardFlags) (r : SetRecord) : SetRecord :=
  { r with
    title := some (r.title.getD { key := m.key, sheetCount := m.sheetCount, cls := m.cls })
    sheets := r.sheets.set (m.sheet - 1) (.filed k f.roll f.ordinal flags)
    retakes := if (r.sheets.getD (m.sheet - 1) .empty).present then min 65535 (r.retakes + 1) else r.retakes }

/-- The SC with the replaced slot given back and the frame's slot FILED under its sheet. -/
def filedSc (n k : Nat) (m : Matched) (chip : Chip) (r : SetRecord) (sc : Sc) : Sc :=
  setSlot k (.held .filed { chip with owner := .set n m.sheet, flags := setFlags r m chip.flags })
    (freeReplaced (r.sheets.getD (m.sheet - 1) .empty) sc)

section OpenRecord
variable {s : State} {n k : Nat} {f : FrameCtx} {m : Matched} {chip : Chip}

theorem fileIntoSet_opened (opened : (setAt s.sau n).state = .opened) (inside : k < s.sc.slots.length)
    (filling : slotAt s.sc k = .held .filling chip)
    (apart : ∀ roll ordinal flags, (setAt s.sau n).sheets.getD (m.sheet - 1) .empty ≠ .filed k roll ordinal flags) :
    fileIntoSet n k f m s = { s with
      sc := filedSc n k m chip (setAt s.sau n) s.sc
      sau := putSet n (recordWith k f m (setFlags (setAt s.sau n) m chip.flags) (setAt s.sau n)) s.sau } := by
  unfold fileIntoSet
  extract_lets r title before retake extra sc1 r1 s1
  have count : title.sheetCount = (r.title.map Title.sheetCount).getD m.sheetCount := by
    unfold title
    cases r.title <;> rfl
  have stands : slotAt (freeReplaced before s.sc) k = .held .filling chip := (freeReplaced_other apart).trans filling
  have filed : sc1 = filedSc n k m chip r s.sc := by
    unfold sc1 filedSc
    rw [fileSlot_filling stands]
    simp only [setFlags, extra, count]
    rfl
  have flags : flagsAt sc1 k = setFlags r m chip.flags := by
    rw [filed]
    exact flagsAt_held (slotAt_setSlot_same _ (by simpa using inside))
  rw [if_neg (by rw [show r.state = .opened from opened]; rintro ⟨e, _⟩; cases e)]
  show { s with sc := sc1, sau := putSet n r1 s.sau } = _
  rw [filed, show r1 = recordWith k f m (setFlags r m chip.flags) r by simp only [r1, recordWith, flags]; rfl]

theorem setAt_putSet {sau : Sau} {r : SetRecord} (inside : n < sau.sets.length) : setAt (putSet n r sau) n = r := by
  unfold setAt putSet
  rw [getD_inside (by simpa using inside), List.getElem_set_self]

/-- A record that is not EMPTY is one of the eight. -/
theorem setAt_inside {sau : Sau} (opened : (setAt sau n).state = .opened) : n < sau.sets.length := by
  refine Decidable.byContradiction fun outside => ?_
  unfold setAt at opened
  rw [getD_outside (Nat.le_of_not_lt outside)] at opened
  cases opened

/-- R121: a take already there is given back. -/
theorem filedSc_replaced {r : SetRecord} {sc : Sc} {old roll ordinal : Nat} {flags : CardFlags}
    (apart : ∀ roll ordinal flags, r.sheets.getD (m.sheet - 1) .empty ≠ .filed k roll ordinal flags)
    (there : r.sheets.getD (m.sheet - 1) .empty = .filed old roll ordinal flags) (inside : old < sc.slots.length)
    (enabled : bankOf old < sc.banks) : slotAt (filedSc n k m chip r sc) old = .free := by
  unfold filedSc
  rw [slotAt_setSlot_other _ (by rintro rfl; exact apart _ _ _ there), there]
  exact slotAt_freeSlot inside enabled

end OpenRecord

/-! ### The filing after the last closing burst (R75 step 4) -/

theorem fileOpen_receiving {s : State} {f : FrameCtx} {k : Nat} (intake : s.rs.intake = .receiving f)
    (slot : f.slot = some k) : fileOpen s =
      { fileFrame f k s with rs := { (fileFrame f k s).rs with intake := .idle, work := .none, geometry := none } } := by
  unfold fileOpen
  rw [intake]
  simp only [slot, Option.getD_some]

/-- With the last closing burst served the frame is filed, and after a FRAME END nothing but what that sets off follows. -/
theorem lastClosing_served {s : State} {w : WriteBurst} {i : Bool} (active : activeWrite s = some w)
    (fits : writeFits w = true) (stands : w.aborted = false) (work : s.rs.work = .margins i []) :
    ∃ t, exec .writeBurstServed s = .next t ∧ (i = false → SetsOff (fileOpen (burstEnded w s)) t) :=
  ⟨_, served_goesOn active fits stands, (advance_filed (s := burstEnded w s) rfl work).explicit⟩

/-- Settles O37: the filing is `fileIntoSet_opened`, and its parts are read off. -/
theorem filingIntoOpenSet : Obligations.FilingIntoOpenSet := by
  intro s w f m n k chip i active fits stands intake _ work dest entry slot opened length sheet inside filling apart
  obtain ⟨t, completes, sets⟩ := lastClosing_served active fits stands work
  have filed : fileFrame f k (burstEnded w s) = fileIntoSet n k f m (burstEnded w s) := by
    unfold fileFrame
    rw [dest, entry]
  rw [fileIntoSet_opened (s := burstEnded w s) opened inside filling apart] at filed
  have effect := fileOpen_receiving (s := burstEnded w s) intake slot
  rw [filed] at effect
  have record : setAt (fileOpen (burstEnded w s)).sau n
      = recordWith k f m (setFlags (setAt s.sau n) m chip.flags) (setAt s.sau n) := by
    rw [effect]
    exact setAt_putSet (setAt_inside opened)
  refine ⟨fileOpen (burstEnded w s), t, setFlags (setAt s.sau n) m chip.flags, completes, sets, rfl, ?_, rfl, ?_, ?_, ?_, ?_,
    ?_⟩
  · rw [effect]; rfl
  · rw [effect]; exact slotAt_setSlot_same _ (by rw [freeReplaced_slots_length]; exact inside)
  · intro old roll ordinal flags there oldInside enabled
    rw [effect]
    exact filedSc_replaced apart there oldInside enabled
  · rw [record]; exact opened
  · rw [record]; rfl
  · rw [record]; rfl

/-! ### Into the group (R123) -/

theorem fileIntoGroup_room {s : State} {f : FrameCtx} {k : Nat} {chip : Chip} (room : s.sau.group.length < 63)
    (inside : k < s.sc.slots.length) (filling : slotAt s.sc k = .held .filling chip) :
    fileIntoGroup k f s = { s with
      sc := setSlot k (.held .filed { chip with
        owner := .group (s.sau.group.length + 1), flags := { chip.flags with unindexed := true } }) s.sc
      sau := { s.sau with
        group := s.sau.group
          ++ [{ slot := k, roll := f.roll, ordinal := f.ordinal, flags := { chip.flags with unindexed := true } }] } } := by
  have notLast (x : GroupFrame) : (s.sau.group ++ [x]).length ≠ Config.groupFrames := by
    rw [List.length_append, List.length_singleton, Config.groupFrames]
    omega
  unfold fileIntoGroup
  simp only [fileSlot_filling filling, flagsAt_held (slotAt_setSlot_same _ inside)]
  rw [if_neg (notLast _)]

/-! ### Into a job of its own (R124) -/

/-- R124, R136: the first reservation's place is taken. -/
theorem fillReservation_first {before after : List Entry} (e : Entry) (first : before.any Entry.isReservation = false) :
    fillReservation e (before ++ .reservation :: after) = before ++ e :: after := by
  induction before with
  | nil => rfl
  | cons x xs ih =>
    rw [List.any_cons, Bool.or_eq_false_iff] at first
    simp only [List.cons_append, fillReservation, first.1, Bool.false_eq_true, if_false, ih first.2]

/-- The flags that a pass-through's filing enters. -/
def passFlags (f : FrameCtx) (g : CardFlags) : CardFlags :=
  { g with uncollated := true, unindexed := g.unindexed || f.entry.isNone }

/-- The one-card job of a pass-through. -/
def passJob (k : Nat) (f : FrameCtx) (s : State) : Job :=
  formJob s .passThrough ((f.entry.map Matched.cls).getD 0) (f.entry.map Matched.key) (f.entry.map Matched.sheetCount)
    [{ slot := k, sheet := (f.entry.map Matched.sheet).getD 0, roll := f.roll, ordinal := f.ordinal }] false false

theorem filePassThrough_eq (k : Nat) (f : FrameCtx) (s : State) : filePassThrough k f s = { s with
    sc := moveSlot k .filed .queued (fun c => { c with owner := .job (passJob k f s).id 1 })
      (fileSlot k .reserved (passFlags f) s.sc)
    cs := { s.cs with
      queue := fillReservation (.job (passJob k f s)) s.cs.queue, nextId := s.cs.nextId + 1 } } := rfl

/-- R91, R92: the slot is FILED for the pass-through and QUEUED with its job at once. -/
theorem filePassThrough_slot {s : State} {f : FrameCtx} {k : Nat} {chip : Chip} (inside : k < s.sc.slots.length)
    (filling : slotAt s.sc k = .held .filling chip) : slotAt (filePassThrough k f s).sc k
      = .held .queued { chip with owner := .job (passJob k f s).id 1, flags := passFlags f chip.flags } := by
  rw [filePassThrough_eq, fileSlot_filling filling, moveSlot_held (slotAt_setSlot_same _ inside)]
  exact slotAt_setSlot_same _ (by rw [setSlot_slots_length]; exact inside)

/-- Settles O38: the filing into the group is `fileIntoGroup_room`, that of a pass-through `filePassThrough_eq`. -/
theorem filingIntoGroupOrJob : Obligations.FilingIntoGroupOrJob := by
  rintro s w f k chip i v active fits stands intake - work slot inside filling rfl
  obtain ⟨t, completes, sets⟩ := lastClosing_served active fits stands work
  have effect := fileOpen_receiving (s := burstEnded w s) intake slot
  refine ⟨fun dest room => ?group, fun before after dest queue first => ?job⟩
  case group =>
    have filed : fileFrame f k (burstEnded w s) = fileIntoGroup k f (burstEnded w s) := by
      unfold fileFrame
      rw [dest]
    rw [filed, fileIntoGroup_room (s := burstEnded w s) room inside filling] at effect
    refine ⟨fileOpen (burstEnded w s), t, completes, sets, rfl, ?_⟩
    rw [effect]
    exact ⟨rfl, rfl, rfl, slotAt_setSlot_same _ inside, rfl⟩
  case job =>
    have filed : fileFrame f k (burstEnded w s) = filePassThrough k f (burstEnded w s) := by
      unfold fileFrame
      rw [dest]
    rw [filed] at effect
    have placed : fillReservation (.job (passJob k f (burstEnded w s))) s.cs.queue
        = before ++ .job (passJob k f (burstEnded w s)) :: after := by rw [queue, fillReservation_first _ first]
    refine ⟨fileOpen (burstEnded w s), t, passJob k f (burstEnded w s), completes, sets, rfl, ?_⟩
    rw [effect]
    exact ⟨rfl, rfl, rfl, placed, rfl, rfl, rfl, rfl, rfl, rfl, rfl, rfl, rfl, rfl, rfl,
      filePassThrough_slot (s := burstEnded w s) inside filling⟩

end Sys2Proof.Machine
end

section
/-! SUPPORT. What a change sets off, one effect at a time (R61, R62, R92, R95 to R97, R118, R129, R136, R142, R143, R163). The
statement O56. -/

namespace Sys2Proof.Machine

-- Checked one after another, as the tests are, to hold the memory and the threads down.
set_option Elab.async false

/-! ### The slots of a formed job (R91, R92) -/

section Queue
variable {id : Nat}

theorem moveSlot_frame (n : Nat) (before after : ChipState) (change : Chip → Chip) (sc : Sc) :
    ∃ slots, moveSlot n before after change sc = { sc with slots := slots } := by
  unfold moveSlot
  split
  · split
    · exact ⟨_, rfl⟩
    · exact ⟨sc.slots, rfl⟩
  all_goals exact ⟨sc.slots, rfl⟩

theorem queueSlots_frame (cards : List CardPos) (pos : Nat) (sc : Sc) :
    ∃ slots, queueSlots id pos cards sc = { sc with slots := slots } := by
  induction cards generalizing pos sc with
  | nil => exact ⟨sc.slots, rfl⟩
  | cons c cs ih =>
    obtain ⟨moved, first⟩ := moveSlot_frame c.slot .filed .queued (fun k => { k with owner := .job id pos }) sc
    obtain ⟨slots, rest⟩ := ih (pos + 1) { sc with slots := moved }
    exact ⟨slots, by rw [queueSlots, first, rest]⟩

theorem queueSlots_others {n : Nat} {cards : List CardPos} (apart : ∀ c, c ∈ cards → c.slot ≠ n) (pos : Nat) (sc : Sc) :
    slotAt (queueSlots id pos cards sc) n = slotAt sc n := by
  induction cards generalizing pos sc with
  | nil => rfl
  | cons c cs ih =>
    rw [queueSlots, ih (fun d hd => apart d (List.mem_cons_of_mem _ hd)), moveSlot_other _ (apart c List.mem_cons_self)]

/-- A slot named once in the card list is QUEUED under its position there. -/
theorem queueSlots_queued {cards : List CardPos} {i : Nat} {c : CardPos} {chip : Chip} {sc : Sc} (pos : Nat)
    (named : cards[i]? = some c) (filed : slotAt sc c.slot = .held .filed chip) (inside : c.slot < sc.slots.length)
    (once : ∀ (k : Nat) (d : CardPos), cards[k]? = some d → d.slot = c.slot → k = i) :
    slotAt (queueSlots id pos cards sc) c.slot = .held .queued { chip with owner := .job id (pos + i) } := by
  induction cards generalizing pos sc i with
  | nil => cases named
  | cons x xs ih =>
    rw [queueSlots]
    cases i with
    | zero =>
      cases named
      have later : ∀ d, d ∈ xs → d.slot ≠ c.slot := by
        intro d hd same
        obtain ⟨k, hk⟩ := List.mem_iff_getElem?.1 hd
        exact absurd (once (k + 1) d hk same) (Nat.succ_ne_zero k)
      rw [queueSlots_others later, moveSlot_held filed, slotAt_setSlot_same _ inside]
      rfl
    | succ i =>
      have apart : x.slot ≠ c.slot := fun same => absurd (once 0 x rfl same) (Nat.succ_ne_zero i).symm
      rw [ih (pos + 1) named ((moveSlot_other _ apart).trans filed) (by rwa [moveSlot_slots_length])
        (fun k d hk same => Nat.succ.inj (once (k + 1) d hk same)), Nat.add_right_comm]
      rfl

theorem slotsQueued_of_slots {s u : State} {cards : List CardPos}
    (slots : u.sc.slots = (queueSlots id 1 cards s.sc).slots) : SlotsQueued s u id cards := by
  have same (n : Nat) : slotAt u.sc n = slotAt (queueSlots id 1 cards s.sc) n := by
    unfold slotAt
    rw [slots]
  refine ⟨fun i c chip named filed inside once => ?_, fun n apart => ?_⟩
  · rw [same, queueSlots_queued 1 named filed inside once, Nat.add_comm 1 i]
  · rw [same, queueSlots_others apart]

/-- A job placed: it stands at the queue's tail, its name is used up, and its slots are QUEUED. -/
theorem placeJob_cases (j : Job) (s : State) : ∃ slots, slots = (queueSlots j.id 1 j.cards s.sc).slots
    ∧ placeJob j s = { s with
      cs := { s.cs with queue := s.cs.queue ++ [.job j], nextId := s.cs.nextId + 1 }
      sc := { s.sc with slots := slots } } := by
  obtain ⟨slots, e⟩ := queueSlots_frame (id := j.id) j.cards 1 s.sc
  exact ⟨slots, by rw [e], by rw [placeJob, takeJob, e]; rfl⟩

end Queue

/-! ### The head of the backlog (R118, R127, R129, R130) -/

/-- The part with the head taken from the backlog. -/
def headLeft (rest : List BacklogItem) (s : State) : State := { s with sau := { s.sau with backlog := rest } }

section Backlog
variable {s : State} {rest : List BacklogItem}

theorem settleStep_placeItem {x : BacklogItem} (backlog : s.sau.backlog = x :: rest) (free : entryFree s = true) :
    settleStep s = some (placeItem x (headLeft rest s)) := by
  rw [settleStep_placeHead (by rw [backlog]; exact List.cons_ne_nil _ _) free, placeHead, backlog]
  rfl

/-- R64, R127: a marker goes to the queue's tail, and ends a BATCH END that waits for it. -/
theorem placeMarker_waited {s : State} {x : Target} (waits : s.rs.intake = .waitTarget x) :
    placeMarker s = { enqueue .marker s with rs := { s.rs with intake := .idle } } := by
  unfold placeMarker
  simp only [enqueue_rs, waits]

theorem placeMarker_alone {s : State} (alone : ∀ x, s.rs.intake ≠ .waitTarget x) : placeMarker s = enqueue .marker s := by
  unfold placeMarker
  simp only [enqueue_rs]
  split
  · exact absurd ‹_› (alone _)
  all_goals rfl

/-- The SET job of a record (R28, R130). -/
def setJob (n : Nat) (s : State) : Job :=
  formJob s .set (((setAt s.sau n).title.map Title.cls).getD 0) ((setAt s.sau n).title.map Title.key)
    ((setAt s.sau n).title.map Title.sheetCount) (setCards (setAt s.sau n)) (setAt s.sau n).short (setAt s.sau n).spill

theorem placeSet_eq (n : Nat) (s : State) : placeSet n s = emptySet n (placeJob (setJob n s) s) := rfl

theorem setJob_of (n : Nat) (s : State) : SetJobOf s.mu (setAt s.sau n) (setAt s.sau n).short (setJob n s) :=
  ⟨rfl, rfl, rfl, rfl, rfl, ⟨rfl, rfl⟩, ⟨rfl, rfl⟩, ⟨rfl, rfl⟩⟩

theorem groupCards_length (i : Nat) (gs : List GroupFrame) : (groupCards i gs).length = gs.length := by
  induction gs generalizing i with
  | nil => rfl
  | cons g gs ih => simp [groupCards, ih]

theorem groupCards_getElem? {gs : List GroupFrame} {k : Nat} {g : GroupFrame} (i : Nat) (stands : gs[k]? = some g) :
    (groupCards i gs)[k]? = some { slot := g.slot, sheet := i + k, roll := g.roll, ordinal := g.ordinal } := by
  induction gs generalizing i k with
  | nil => cases stands
  | cons x xs ih =>
    cases k with
    | zero => cases stands; rfl
    | succ k =>
      have next := ih (i + 1) stands
      rw [Nat.add_assoc, Nat.add_comm 1 k] at next
      exact next

/-- The SPILL job of a record's filed sheets (R129). -/
def spillJob (n : Nat) (s : State) : Job :=
  formJob s .partialSet (((setAt s.sau n).title.map Title.cls).getD 0) ((setAt s.sau n).title.map Title.key)
    ((setAt s.sau n).title.map Title.sheetCount) (setCards (setAt s.sau n)) false true

/-- R129: a spill request names an opening of a record that is still OPEN and has a sheet FILED. -/
def SpillStands (n o : Nat) (s : State) : Prop :=
  (setAt s.sau n).state = .opened ∧ (setAt s.sau n).opening = some o ∧ setCards (setAt s.sau n) ≠ []

theorem placeSpill_dropped {n o : Nat} {s : State} (gone : ¬ SpillStands n o s) : placeSpill n o s = s := by
  unfold placeSpill
  exact if_neg gone

theorem placeSpill_placed {n o : Nat} {s : State} (stands : SpillStands n o s) :
    placeSpill n o s = { placeJob (spillJob n s) s with
      sau := putSet n { setAt s.sau n with
        sheets := (setAt s.sau n).sheets.map SheetPos.spillOut, spill := true } s.sau } := by
  unfold placeSpill
  exact if_pos stands

end Backlog

/-! ### Markers and releases (R95, R96, R143, R163) -/

section Cards
variable {s : State}

/-- With nothing to place and neither a reservation nor a slot to grant, the marker, the release or the card comes next. -/
theorem settleStep_cardsNext (next : CardsNext s) : settleStep s = settleCards s := by
  have noReservation : reservationGrant s = none := by
    unfold reservationGrant reservationWaiter
    cases intake : s.rs.intake with
    | waitReservation f => simp [next.reservation f intake]
    | _ => rfl
  have noSlot : slotGrant s = none := by
    cases intake : s.rs.intake with
    | waitSlot f =>
      unfold slotGrant
      rw [slotAsker_waitSlot intake]
      rcases next.slot f intake with purge | full
      · rw [if_neg purge]
      · rw [full]; split <;> rfl
    | _ => simp [slotGrant, slotAsker, slotWaiter, intake]
  unfold settleStep
  rw [if_neg (not_placeable next.backlog), noReservation, noSlot]

theorem pressureFor_none (quiet : NoRelease s) : pressureFor s = none := by
  cases intake : s.rs.intake with
  | waitSlot f =>
    unfold pressureFor
    rw [slotAsker_waitSlot intake]
    rcases quiet f intake with purge | asked | path
    · rw [if_neg purge]
    · rw [asked]; split <;> rfl
    · rw [path]; split <;> simp
  | _ => simp [pressureFor, slotAsker, slotWaiter, intake]

theorem pressureFor_some {f : FrameCtx} (intake : s.rs.intake = .waitSlot f) (purge : s.mu.purgeTag = none)
    (ask : s.sc.askAgain = true) (path : cardPathHolds s.sc = false) : pressureFor s = some f := by
  unfold pressureFor
  rw [slotAsker_waitSlot intake, if_pos purge]
  simp only [ask, path, Bool.not_false, Bool.and_self, if_true]

theorem markerReady_of {q : List Entry} (queue : s.cs.queue = .marker :: q) (noCard : s.cli.card = none)
    (awake : s.sc.mode ≠ .retaining) : markerReady s = true := by
  unfold markerReady
  rw [queue, noCard]
  simpa using awake

/-- R143, R163: the marker leaves, the batch number and the tray sequence go on, and BATCH_DONE names the batch completed. -/
theorem removeMarker_eq {q : List Entry} (queue : s.cs.queue = .marker :: q) (room : s.fli.notices.length < 32) :
    removeMarker s = { s with
      cs := { s.cs with queue := q }
      cli := { s.cli with batch := (if s.cli.batch = 65535 then 1 else s.cli.batch + 1), nextTray := 1 }
      fli := { s.fli with notices := s.fli.notices ++ [plainNotice .batchDone s.cli.batch] }
      sc := { s.sc with askAgain := true } } := by
  unfold removeMarker
  simp only [queue]
  exact if_pos room

end Cards

/-! ### What a change sets off -/

theorem settle_some {s v : State} (step : settleStep s = some v) :
    settle s = { settleLoop 127 v with sc := storeAfter (settleLoop 127 v).sc } := by
  have first : settleLoop settleFuel s = settleLoop 127 v := by
    rw [show settleFuel = 127 + 1 from rfl, settleLoop, step]
  unfold settle
  rw [first]

section Placed
variable {s : State} {rest : List BacklogItem}

theorem marker_follows (free : entryFree s = true) (backlog : s.sau.backlog = .marker :: rest) :
    ∃ v, settleStep s = some v
      ∧ v = { s with
          sau := { s.sau with backlog := rest }, cs := { s.cs with queue := s.cs.queue ++ [.marker] }, rs := v.rs }
      ∧ (∀ x, s.rs.intake = .waitTarget x → v.rs = { s.rs with intake := .idle })
      ∧ ((∀ x, s.rs.intake ≠ .waitTarget x) → v.rs = s.rs) := by
  refine ⟨placeMarker (headLeft rest s), settleStep_placeItem backlog free, ?_⟩
  by_cases waits : ∃ x, s.rs.intake = .waitTarget x
  · obtain ⟨x, intake⟩ := waits
    rw [placeMarker_waited (s := headLeft rest s) intake]
    exact ⟨rfl, fun _ _ => rfl, fun alone => absurd intake (alone x)⟩
  · have alone : ∀ x, s.rs.intake ≠ .waitTarget x := fun x intake => waits ⟨x, intake⟩
    rw [placeMarker_alone (s := headLeft rest s) alone]
    exact ⟨rfl, fun x intake => absurd intake (alone x), fun _ => rfl⟩

theorem set_follows {n : Nat} (free : entryFree s = true) (backlog : s.sau.backlog = .set n :: rest) :
    ∃ v j, settleStep s = some v ∧ SetJobOf s.mu (setAt s.sau n) (setAt s.sau n).short j
      ∧ v = { s with
          sau := { s.sau with sets := s.sau.sets.set n .blank, backlog := rest }
          cs := { s.cs with queue := s.cs.queue ++ [.job j], nextId := s.cs.nextId + 1 }
          sc := { s.sc with slots := v.sc.slots, askAgain := true } }
      ∧ SlotsQueued s v j.id (setCards (setAt s.sau n)) := by
  obtain ⟨slots, queued, placed⟩ := placeJob_cases (setJob n (headLeft rest s)) (headLeft rest s)
  have effect : placeItem (.set n) (headLeft rest s) = _ :=
    (placeSet_eq n (headLeft rest s)).trans (congrArg (emptySet n) placed)
  refine ⟨_, setJob n (headLeft rest s), (settleStep_placeItem backlog free).trans (congrArg some effect),
    setJob_of n (headLeft rest s), rfl, ?_⟩
  exact slotsQueued_of_slots queued

/-- The group's job (R28, R130). -/
def groupJob (s : State) : Job := formJob s .unindexedGroup 0 none none (groupCards 1 s.sau.group) false false

theorem group_follows (free : entryFree s = true) (backlog : s.sau.backlog = .group :: rest) :
    ∃ v j, settleStep s = some v ∧ j = groupJob s
      ∧ v = { s with
          sau := { s.sau with group := [], groupClosed := false, backlog := rest }
          cs := { s.cs with queue := s.cs.queue ++ [.job j], nextId := s.cs.nextId + 1 }
          sc := { s.sc with slots := v.sc.slots, askAgain := true } }
      ∧ SlotsQueued s v j.id j.cards := by
  obtain ⟨slots, queued, placed⟩ := placeJob_cases (groupJob (headLeft rest s)) (headLeft rest s)
  have effect : placeItem .group (headLeft rest s) = { s with
      sau := { s.sau with group := [], groupClosed := false, backlog := rest }
      cs := { s.cs with queue := s.cs.queue ++ [.job (groupJob s)], nextId := s.cs.nextId + 1 }
      sc := { s.sc with slots := slots, askAgain := true } } := by
    show placeGroup (headLeft rest s) = _
    unfold placeGroup
    rw [show placeJob (formJob (headLeft rest s) .unindexedGroup 0 none none (groupCards 1 (headLeft rest s).sau.group)
      false false) (headLeft rest s) = _ from placed]
    rfl
  exact ⟨_, groupJob s, (settleStep_placeItem backlog free).trans (congrArg some effect), rfl, rfl,
    slotsQueued_of_slots queued⟩

theorem spill_dropped {n o : Nat} (free : entryFree s = true) (backlog : s.sau.backlog = .spill n o :: rest)
    (gone : ¬ SpillStands n o s) : settleStep s = some { s with sau := { s.sau with backlog := rest } } :=
  (settleStep_placeItem backlog free).trans (congrArg some (placeSpill_dropped (s := headLeft rest s) gone))

theorem spill_follows {n o : Nat} (free : entryFree s = true) (backlog : s.sau.backlog = .spill n o :: rest)
    (stands : SpillStands n o s) : ∃ v j, settleStep s = some v ∧ j = spillJob n s
      ∧ v = { s with
          sau := { s.sau with
            backlog := rest
            sets := s.sau.sets.set n { setAt s.sau n with
              spill := true, sheets := (setAt s.sau n).sheets.map SheetPos.spillOut } }
          cs := { s.cs with queue := s.cs.queue ++ [.job j], nextId := s.cs.nextId + 1 }
          sc := { s.sc with slots := v.sc.slots } }
      ∧ SlotsQueued s v j.id (setCards (setAt s.sau n)) := by
  obtain ⟨slots, queued, placed⟩ := placeJob_cases (spillJob n (headLeft rest s)) (headLeft rest s)
  have effect := placeSpill_placed (s := headLeft rest s) stands
  rw [placed] at effect
  exact ⟨_, spillJob n s, (settleStep_placeItem backlog free).trans (congrArg some effect), rfl, rfl,
    slotsQueued_of_slots queued⟩

end Placed

section Cards
variable {s : State}

theorem marker_removed (next : CardsNext s) (ready : markerReady s = true) (quiet : NoRelease s) :
    settleStep s = some (removeMarker s) := by
  rw [settleStep_cardsNext next, settleCards, ready, pressureFor_none quiet]

/-- R143 and R96 fall together: either may come first (log entry 4). -/
theorem marker_or_release (next : CardsNext s) (ready : markerReady s = true) {f : FrameCtx}
    (pressed : pressureFor s = some f) :
    settleStep s = some (removeMarker { s with freeCount := s.freeCount + 1 })
      ∨ settleStep s = some (askRelease f { s with freeCount := s.freeCount + 1 }) := by
  rw [settleStep_cardsNext next, settleCards, ready, pressed]
  simp only [markerOrRelease]
  split
  · exact .inl rfl
  · exact .inr rfl

theorem release_asked (next : CardsNext s) (noMarker : markerReady s = false) {f : FrameCtx}
    (pressed : pressureFor s = some f) : settleStep s = some (askRelease f s) := by
  rw [settleStep_cardsNext next, settleCards, noMarker, pressed]

end Cards

/-- Settles O56: one lemma above for each kind of effect. -/
theorem whatFollows : Obligations.WhatFollows := by
  refine ⟨fun s => ⟨settle_quiet, fun v => settle_some⟩,
    fun s rest free => ⟨marker_follows free, fun n => set_follows free, ?group, fun n o backlog => ⟨?dropped, ?spilled⟩⟩,
    fun s f => ⟨?reservation, ?slot⟩, ?marker, ?release⟩
  case group =>
    intro backlog
    obtain ⟨v, j, step, rfl, effect, queued⟩ := group_follows free backlog
    exact ⟨v, groupJob s, step, effect, queued, rfl, rfl, rfl, rfl, rfl, rfl, rfl, rfl, rfl, rfl, groupCards_length ..,
      fun i g stands => by rw [Nat.add_comm i 1]; exact groupCards_getElem? 1 stands⟩
  case dropped => exact spill_dropped free backlog
  case spilled =>
    intro opened opening filed
    obtain ⟨v, j, step, rfl, effect, queued⟩ := spill_follows free backlog ⟨opened, opening, filed⟩
    exact ⟨v, spillJob n s, step, effect, queued, rfl, rfl, rfl, rfl, rfl, rfl, rfl, rfl, rfl, rfl, rfl⟩
  case reservation => exact settleStep_grantReservation
  case slot =>
    intro n g intake placed purge geometry chosen
    rw [settleStep_grantSlot intake placed purge chosen, grantSlot_eq n geometry]
  case marker =>
    rintro s q next queue noCard awake room v rfl
    have ready := markerReady_of queue noCard awake
    refine ⟨fun quiet => ?_, fun f intake purge ask path => ?_⟩
    · rw [marker_removed next ready quiet, removeMarker_eq queue room]
    · have either := marker_or_release next ready (pressureFor_some intake purge ask path)
      rw [removeMarker_eq (s := { s with freeCount := s.freeCount + 1 }) queue room] at either
      exact either
  case release =>
    intro s f next intake purge ask path noMarker
    exact release_asked next noMarker (pressureFor_some intake purge ask path)

end Sys2Proof.Machine
end

section
/-! SUPPORT. The density monitor under every operation (R81 to R89): what leaves it as it is, what evaluates a header, and
what one command can make of it. The statement O8. -/

namespace Sys2Proof.Machine

-- Checked one after another, as the tests are, to hold the memory and the threads down.
set_option Elab.async false

/-! ### The sets and what follows from a change leave the monitor -/

section SetsMonitor
variable (s : State)

@[simp] theorem settle_dm : (settle s).dm = s.dm := (sameLink_settle s).dm
@[simp] theorem finish_dm : (finish s).dm = s.dm := (sameCore_finish s).dm
@[simp] theorem beginWake_dm : (beginWake s).dm = s.dm := (sameLink_beginWake s).dm
@[simp] theorem drainBacklog_dm : (drainBacklog s).dm = s.dm := (sameLink_drainBacklog s).dm
@[simp] theorem emptySet_dm (n : Nat) : (emptySet n s).dm = s.dm := rfl
@[simp] theorem closeSet_dm (n : Nat) (short : Bool) : (closeSet n short s).dm = s.dm := (sameLink_closeSet n short s).dm
@[simp] theorem closeGroup_dm : (closeGroup s).dm = s.dm := rfl
@[simp] theorem openRecord_dm (n : Nat) : (openRecord n s).dm = s.dm := rfl
@[simp] theorem forceOut_dm (n roll ordinal detail : Nat) : (forceOut n roll ordinal detail s).dm = s.dm :=
  (sameLink_forceOut n roll ordinal detail s).dm
@[simp] theorem pump_dm : (pump s).dm = s.dm := (sameLink_pump s).dm

@[simp] theorem endSet_dm (n roll ordinal : Nat) : (endSet n roll ordinal s).dm = s.dm := by
  obtain ⟨r, items, _, ⟨_, e⟩ | ⟨x, _, _, e⟩⟩ := endSet_cases n roll ordinal s <;> rw [e]
  · rfl
  · exact raiseNotice_dm ..

@[simp] theorem endBatch_dm (t : Target) : (endBatch t s).dm = s.dm := by
  obtain ⟨sets, items, again, _, ⟨_, e⟩ | ⟨n, x, _, _, _, e⟩⟩ := endBatch_cases t s <;> rw [e]
  exact raiseNotice_dm ..

@[simp] theorem openOrForce_dm (t : Target) : (openOrForce t s).dm = s.dm := by
  unfold openOrForce
  split
  · simp
  · split
    · simp
    · simp only; split <;> simp

@[simp] theorem targetOp_dm (t : Target) : (targetOp t s).dm = s.dm := by
  unfold targetOp
  simp only
  split
  · unfold startTargetOp; split <;> simp
  · unfold endTargetOp; split <;> simp
  · simp [batchEndOp]

@[simp] theorem releaseReservation_dm : (releaseReservation s).dm = s.dm := by
  unfold releaseReservation; split <;> simp

@[simp] theorem fileFrame_dm (f : FrameCtx) (slot : Nat) : (fileFrame f slot s).dm = s.dm := by
  have close (c : Prop) [Decidable c] (n : Nat) (u : State) : (if c then closeSet n false u else u).dm = u.dm := by
    split <;> simp
  unfold fileFrame
  split
  · exact close ..
  · rfl
  · unfold fileIntoGroup; simp only; split <;> simp
  · simp [filePassThrough]

end SetsMonitor

/-! ### The cards leave the monitor -/

section CardsMonitor
variable (s : State)

@[simp] theorem endSlot_dm (k : CardKind) (v : Verdict) : (endSlot k v s).dm = s.dm := by
  unfold endSlot
  split
  · split <;> rfl
  all_goals rfl

@[simp] theorem copyDone_dm (k : CardKind) : (copyDone k s).dm = s.dm := by
  cases k with
  | chip job position copy slot =>
    show (jobDone job s).dm = s.dm
    unfold jobDone
    split
    · rfl
    · simp only; split <;> rfl
  | separatorOpen | separatorClose =>
    show (separatorDone s).dm = s.dm
    unfold separatorDone
    split
    · rfl
    · split <;> rfl

@[simp] theorem endAttempt_dm (c : Card) (v : Verdict) : (endAttempt c v s).dm = s.dm := by
  have cleared : (clearCard c v (endSlot c.kind v s)).dm = s.dm := endSlot_dm s c.kind v
  cases v with
  | completed => exact (copyDone_dm _ c.kind).trans cleared
  | retry cause => exact cleared
  | rejected cause => exact (copyDone_dm _ c.kind).trans ((raiseNotice_dm ..).trans cleared)

@[simp] theorem withdrawRetry_dm (k : CardKind) : (withdrawRetry k s).dm = s.dm := by
  refine (copyDone_dm _ k).trans ?_
  show (withdrawSlot k s).dm = s.dm
  unfold withdrawSlot
  split
  · split <;> rfl
  all_goals rfl

@[simp] theorem takeAccepted_dm (echo : Nat) : (takeAccepted echo s).dm = s.dm := by
  unfold takeAccepted
  split
  · simp
  · unfold lateAccepted
    simp only
    split
    · split <;> simp
    · simp

@[simp] theorem takeSpoiled_dm (echo : Nat) (reason : SpoilReason) : (takeSpoiled echo reason s).dm = s.dm := by
  unfold takeSpoiled
  split <;> simp [lateSpoiled]

@[simp] theorem takeRecorderState_dm (ready : Bool) : (takeRecorderState ready s).dm = s.dm := by
  unfold takeRecorderState
  split <;> simp

@[simp] theorem takeRestarted_dm : (takeRestarted s).dm = s.dm := by
  unfold takeRestarted
  simp only
  split <;> simp

@[simp] theorem takeMessage_dm (m : RecorderMessage) : (takeMessage m s).dm = s.dm := by
  cases m <;> simp [takeMessage]

end CardsMonitor

/-! ### The management records but MONITOR SETUP and LINK RESET leave the monitor -/

section RecordsMonitor
variable (tag : Byte) (s : State)

@[simp] theorem tableWriteOp_dm (kind : Byte) (position : Nat) (content : List Byte) :
    (tableWriteOp tag kind position content s).dm = s.dm := by
  unfold tableWriteOp
  split
  · rfl
  · split <;> rfl

@[simp] theorem setReleaseOp_dm (n : Nat) : (setReleaseOp tag n s).dm = s.dm := by
  unfold setReleaseOp releaseSet
  split
  · rfl
  · simp only [settle_dm, placeReply_dm]
    split <;> simp

@[simp] theorem setDiscardOp_dm (n : Nat) : (setDiscardOp tag n s).dm = s.dm := by
  unfold setDiscardOp
  split
  · rfl
  · simp only; split <;> simp [discardSet]

@[simp] theorem cardCancelOp_dm : (cardCancelOp tag s).dm = s.dm := by
  unfold cardCancelOp
  split <;> simp [cancelCard]

@[simp] theorem storeSetupOp_dm (interval banks : Nat) : (storeSetupOp tag interval banks s).dm = s.dm := by
  unfold storeSetupOp
  split <;> simp

@[simp] theorem storeRetainOp_dm : (storeRetainOp tag s).dm = s.dm := by
  unfold storeRetainOp
  split
  · split <;> rfl
  all_goals rfl

@[simp] theorem storeWakeOp_dm : (storeWakeOp tag s).dm = s.dm := by
  unfold storeWakeOp
  split <;> simp

@[simp] theorem abortWith_dm (f : FrameCtx) (lost : Notice) : (abortWith f lost s).dm = s.dm := by
  simp [abortWith]

@[simp] theorem purgeFrame_dm : (purgeFrame s).dm = s.dm := by
  unfold purgeFrame
  split <;> simp

@[simp] theorem againTarget_dm : (againTarget s).dm = s.dm := by
  unfold againTarget
  split <;> simp

@[simp] theorem purgeEnd_dm : (purgeEnd tag s).dm = s.dm := by
  unfold purgeEnd
  split <;> rfl

@[simp] theorem storePurgeOp_dm : (storePurgeOp tag s).dm = s.dm := by
  unfold storePurgeOp
  split
  · rfl
  · rw [settle_dm, purgeEnd_dm, againTarget_dm]
    exact purgeFrame_dm s

@[simp] theorem recorderSetupOp_dm (pr timeout : Nat) : (recorderSetupOp tag pr timeout s).dm = s.dm := by
  unfold recorderSetupOp
  split <;> rfl

end RecordsMonitor

/-! ### The links and the store's events leave the monitor -/

section LinksMonitor
variable (s : State)

@[simp] theorem intakeLinkLoss_dm : (intakeLinkLoss s).dm = s.dm := by
  unfold intakeLinkLoss
  split <;> simp

@[simp] theorem markLoss_dm (k : FilmKind) : (markLoss k s).dm = s.dm := by
  unfold markLoss
  split <;> rfl

@[simp] theorem takeRecord_dm (r : LinkRecord) : (takeRecord r s).dm = s.dm := by
  unfold takeRecord
  split
  · unfold takeCheckError
    split <;> simp [linkError]
  · split
    · rfl
    · unfold overrun
      split <;> rfl
  · split <;> rfl

@[simp] theorem endSending_dm : (endSending s).dm = s.dm := by
  unfold endSending
  split
  · rfl
  all_goals split <;> rfl

@[simp] theorem readServed_dm (r : ReadBurst) : (readServed r s).dm = s.dm := pump_dm _

end LinksMonitor

/-! ### A header is evaluated (R82, R83) -/

section Evaluation
variable {s t u : State} {h : Header}

@[simp] theorem evaluateHeader_dm (h : Header) (m : Option Matched) (s : State) :
    (evaluateHeader h m s).dm = s.dm.evaluate h := (evaluateHeader_raisesOnly h m s).dm

@[simp] theorem floorTest_dm (h : Header) (m : Option Matched) (rf : Nat) (s : State) :
    (floorTest h m rf s).dm = s.dm := by
  have clamped (g : Geometry) : (noticeClamped g h m s).dm = s.dm := by
    unfold noticeClamped
    split <;> simp
  unfold floorTest
  split
  · exact raiseNotice_dm ..
  · exact clamped _

/-- R82: a header with both extents above 0 that is no leader is evaluated, whatever becomes of its frame. -/
theorem takeHeader_evaluates (hw : h.wf ≠ 0) (hh : h.hf ≠ 0) (notLeader : ¬ (1 ≤ h.ordinal ∧ h.ordinal ≤ 4)) :
    (takeHeader h s).dm = s.dm.evaluate h := by
  unfold takeHeader
  rw [if_neg (extents_good hw hh)]
  split
  next found =>
    rcases classify_cases s.mu h with ⟨leader, _⟩ | ⟨_, ⟨p, e, _, c⟩ | ⟨_, c⟩⟩
    · exact absurd ((isLeader_iff _).1 leader) notLeader
    · rw [c] at found; split at found <;> cases found
    · rw [c] at found; cases found
  next p m _ => simp [skipSuperseded, discardFrame]
  next p m _ => simp
  next rf _ => simp

/-- R82: the monitor stands, or has evaluated one header. -/
def MayEvaluate (s t : State) : Prop := t.dm = s.dm ∨ ∃ h, t.dm = s.dm.evaluate h

theorem MayEvaluate.after (before : u.dm = s.dm) (m : MayEvaluate u t) : MayEvaluate s t := by
  unfold MayEvaluate
  rwa [← before]

/-- R82: a header with an extent of 0 and a leader are not evaluated, every other header is. -/
theorem takeHeader_mayEvaluate (h : Header) (s : State) : MayEvaluate s (takeHeader h s) := by
  by_cases bad : h.wf = 0 ∨ h.hf = 0
  · exact .inl (by rw [takeHeader_badExtent bad]; simp)
  · obtain ⟨hw, hh⟩ := not_or.1 bad
    by_cases leader : 1 ≤ h.ordinal ∧ h.ordinal ≤ 4
    · exact .inl (by rw [takeHeader_leader hw hh leader]; rfl)
    · exact .inr ⟨h, takeHeader_evaluates hw hh leader⟩

theorem settle_takeHeader_mayEvaluate (h : Header) (s : State) : MayEvaluate s (settle (takeHeader h s)) := by
  unfold MayEvaluate
  rw [settle_dm]
  exact takeHeader_mayEvaluate h s

end Evaluation

/-! ### The intake evaluates a header at most (R58, R76) -/

section Intake

@[simp] theorem placeLine_dm (f : FrameCtx) (g : Geometry) (slot : Nat) (inks : List Byte) (s : State) :
    (placeLine f g slot inks s).dm = s.dm := by
  unfold placeLine
  split <;> rfl

@[simp] theorem fillLine_dm (f : FrameCtx) (g : Geometry) (slot : Nat) (s : State) :
    (fillLine f g slot s).dm = s.dm := placeLine_dm ..

@[simp] theorem resampleLine_dm (f : FrameCtx) (g : Geometry) (slot : Nat) (samples : List Byte) (s : State) :
    (resampleLine f g slot samples s).dm = s.dm := by
  unfold resampleLine
  split
  · exact fillLine_dm ..
  · simp only; split <;> simp

@[simp] theorem sentCheck_dm (f : FrameCtx) (slot : Nat) (sent : Option Nat) (s : State) :
    (sentCheck f slot sent s).dm = s.dm := by
  unfold sentCheck
  split
  · split <;> rfl
  · rfl

theorem workStep_dm {f : FrameCtx} {g : Geometry} {slot : Nat} {s t : State} (e : workStep f g slot s = some t) :
    t.dm = s.dm := by
  unfold workStep at e
  split at e
  · cases e
  · split at e <;> cases e <;> simp
  · split at e <;> cases e <;> simp
  · cases e
  · cases e; rfl

@[simp] theorem runWork_dm (n : Nat) (s : State) : (runWork n s).dm = s.dm := by
  induction n generalizing s with
  | zero => rfl
  | succ n ih =>
    unfold runWork
    split
    · split
      · rename_i step; rw [ih, workStep_dm step]
      · rfl
    · rfl

@[simp] theorem fileOpen_dm (s : State) : (fileOpen s).dm = s.dm := by
  unfold fileOpen
  split
  · exact fileFrame_dm ..
  all_goals rfl

/-- R76: of the records that cause an implicit end only a header is evaluated. -/
theorem takeCause_mayEvaluate (s : State) : MayEvaluate s (takeCause s) := by
  unfold takeCause
  split
  · exact settle_takeHeader_mayEvaluate _ (popHead s)
  · exact .inl (by simp)
  · exact .inl rfl
  · exact .inl rfl

theorem advance_mayEvaluate (s : State) : MayEvaluate s (advance s) := by
  have closed (implicit : Bool) (u : State) : MayEvaluate u (closeFrame implicit u) := by
    have filed : (settle (fileOpen u)).dm = u.dm := by simp
    unfold closeFrame
    simp only
    split
    · exact (takeCause_mayEvaluate _).after filed
    · exact .inl filed
  unfold advance
  simp only
  split
  · exact (closed ..).after (runWork_dm ..)
  · exact .inl (runWork_dm ..)

theorem implicitEnd_mayEvaluate (f : FrameCtx) (s : State) : MayEvaluate s (implicitEnd f s) :=
  (advance_mayEvaluate _).after (raiseNotice_dm ..)

theorem takeFrameHeader_mayEvaluate (h : Header) (s : State) : MayEvaluate s (takeFrameHeader h s) := by
  unfold takeFrameHeader
  split
  · exact implicitEnd_mayEvaluate ..
  all_goals exact settle_takeHeader_mayEvaluate h (popHead s)

theorem takeLineRecord_mayEvaluate (n : Nat) (samples : List Byte) (s : State) :
    MayEvaluate s (takeLineRecord n samples s) := by
  unfold takeLineRecord
  split
  · unfold takeLine
    simp only
    split
    · exact (advance_mayEvaluate _).after rfl
    · exact .inl rfl
  all_goals exact .inl rfl

theorem takeFrameEndRecord_mayEvaluate (sent : Nat) (s : State) : MayEvaluate s (takeFrameEndRecord sent s) := by
  unfold takeFrameEndRecord
  split
  · exact (advance_mayEvaluate _).after rfl
  all_goals exact .inl rfl

theorem takeTarget_mayEvaluate (t : Target) (s : State) : MayEvaluate s (takeTarget t s) := by
  unfold takeTarget
  split
  · exact implicitEnd_mayEvaluate ..
  all_goals exact .inl (by simp)

theorem takeLoss_mayEvaluate (k : FilmKind) (s : State) : MayEvaluate s (takeLoss k s) := by
  unfold takeLoss
  split
  · split
    · exact implicitEnd_mayEvaluate ..
    all_goals exact .inl rfl
  all_goals exact .inl rfl

theorem writeServed_mayEvaluate (w : WriteBurst) (s : State) : MayEvaluate s (writeServed w s) := by
  unfold writeServed
  simp only
  split
  · exact .inl (settle_dm _)
  · exact (advance_mayEvaluate _).after rfl

/-- R109: the header that began a wake is evaluated when it is taken after it. -/
theorem endWake_mayEvaluate (s : State) : MayEvaluate s (endWake s) := by
  unfold endWake
  simp only
  split
  · exact (settle_takeHeader_mayEvaluate _ _).after rfl
  · exact .inl rfl

end Intake

/-! ### What a command can make of the monitor -/

/-- R87: a MONITOR SETUP passes its checks with thresholds that rise up to 255 and an enable of 0 or 1. -/
theorem monitorCheck_iff (m : MonitorFields) (on : Bool) :
    monitorCheck m = some on ↔ (m.floor < m.enter ∧ m.enter < m.leave ∧ m.leave ≤ 255) ∧ flag? m.enable = some on := by
  unfold monitorCheck
  split
  · split
    next b flag =>
      rw [flag, Option.ite_none_right_eq_some, ← and_assoc]
      refine and_congr_left fun _ => ⟨?_, ?_⟩ <;> omega
    next flag => simp [flag]
  · refine iff_of_false nofun fun passes => ?_
    omega

/-- Every way in which one command can change the monitor. -/
inductive MonitorChange (d : Dm) : Dm → Prop where
  | stands : MonitorChange d d
  /-- R83: one header is evaluated. -/
  | evaluated (h : Header) : MonitorChange d (d.evaluate h)
  /-- R177: loading ends. -/
  | loaded (words : List Word16) : MonitorChange d
      { d with
        floor := (configItems words).floor, enter := (configItems words).enter, leave := (configItems words).leave }
  /-- R87: a MONITOR SETUP is accepted. -/
  | replaced (m : MonitorFields) (on : Bool) (accepted : monitorCheck m = some on) : MonitorChange d (d.setTo m on)
  /-- R176: LINK RESET. -/
  | linkReset : MonitorChange d { d with state := .normal, last := none }
  /-- R177: POWER_ON. -/
  | powerOn : MonitorChange d State.reset.dm

section Change
variable {s t u : State}

theorem MonitorChange.of_eq (e : t.dm = s.dm) : MonitorChange s.dm t.dm := e ▸ .stands

theorem MayEvaluate.change (m : MayEvaluate s t) : MonitorChange s.dm t.dm := by
  obtain e | ⟨h, e⟩ := m <;> rw [e]
  · exact .stands
  · exact .evaluated h

theorem monitorSetupOp_change (tag : Byte) (m : MonitorFields) (s : State) :
    MonitorChange s.dm (monitorSetupOp tag m s).dm := by
  have warned (d : Dm) (on : Bool) (u : State) : (warnLate d on u).dm = u.dm := by
    unfold warnLate
    split
    · split <;> simp
    · rfl
  unfold monitorSetupOp
  split
  · exact .stands
  · rename_i on accepted
    rw [placeReply_dm, warned]
    exact .replaced m on accepted

theorem linkResetOp_change (tag : Byte) (s : State) : MonitorChange s.dm (linkResetOp tag s).dm := by
  have abandoned : (abandonCard s).dm = s.dm := by
    unfold abandonCard
    split <;> rfl
  have reset : (linkResetOp tag s).dm = { (abandonCard s).dm with state := .normal, last := none } := rfl
  rw [reset, abandoned]
  exact .linkReset

/-- An event whose condition does not hold leaves the monitor (log entry 1). -/
theorem MonitorChange.event {p : Prop} [Decidable p]
    (e : (if p then .next (finish u) else .next (fresh s) : Host.Outcome State Fault Refusal) = .next t)
    (change : MonitorChange s.dm u.dm) : MonitorChange s.dm t.dm := by
  split at e <;> cases e
  · rw [finish_dm]; exact change
  · exact .stands

/-- So does a command when what it acts on does not stand there. -/
theorem MonitorChange.actOn {α : Type} {c : Instr} {head : Option α} {op : α → State}
    (acts : exec c s = Machine.actOn head op s) (e : exec c s = .next t) (change : ∀ a, MonitorChange s.dm (op a).dm) :
    MonitorChange s.dm t.dm := by
  rw [acts] at e
  cases head with
  | none => cases e; exact .stands
  | some a => cases e; rw [finish_dm]; exact change a

/-- No command changes the monitor in any other way. -/
theorem exec_monitorChange {c : Instr} (e : exec c s = .next t) : MonitorChange s.dm t.dm := by
  have settled {v : State} (same : v.dm = s.dm) : MonitorChange s.dm (finish (settle v)).dm :=
    .of_eq (by rw [finish_dm, settle_dm, same])
  cases c with
  | powerOn => cases e; exact .powerOn
  | loadingEnd words => exact .event e (.loaded words)
  | linkUp => exact .event e .stands
  | linkLoss => exact .event e (.of_eq (by simp [dropLink]))
  | recordReceived r => exact .event e (.of_eq (takeRecord_dm ..))
  | frameHeader =>
    simp only [exec, execFrameHeader] at e
    split at e
    · split at e <;> cases e
      · rw [finish_dm]; exact (takeFrameHeader_mayEvaluate _ (fresh s)).change
      · exact .of_eq (finish_dm _)
    · cases e; exact .stands
  | line => exact .actOn (exec_line s) e fun _ => (takeLineRecord_mayEvaluate _ _ (taken s)).change
  | frameEnd => exact .actOn (exec_frameEnd s) e fun _ => (takeFrameEndRecord_mayEvaluate _ (taken s)).change
  | start => exact .actOn (exec_start s) e fun _ => (takeTarget_mayEvaluate _ (fresh s)).change
  | endTarget => exact .actOn (exec_endTarget s) e fun _ => (takeTarget_mayEvaluate _ (fresh s)).change
  | batchEnd => exact .actOn (exec_batchEnd s) e fun _ => (takeTarget_mayEvaluate _ (fresh s)).change
  | lossIndication => exact .actOn (exec_lossIndication s) e fun _ => (takeLoss_mayEvaluate _ (fresh s)).change
  | tableWrite => exact .actOn (exec_tableWrite s) e fun _ => .of_eq (tableWriteOp_dm ..)
  | tableFence => exact .actOn (exec_tableFence s) e fun _ => .stands
  | tableRead => exact .actOn (exec_tableRead s) e fun _ => .stands
  | tableDescribe => exact .actOn (exec_tableDescribe s) e fun _ => .stands
  | setRelease => exact .actOn (exec_setRelease s) e fun _ => .of_eq (setReleaseOp_dm ..)
  | setDiscard => exact .actOn (exec_setDiscard s) e fun _ => .of_eq (setDiscardOp_dm ..)
  | cardCancel => exact .actOn (exec_cardCancel s) e fun _ => .of_eq (cardCancelOp_dm ..)
  | storeSetup => exact .actOn (exec_storeSetup s) e fun _ => .of_eq (storeSetupOp_dm ..)
  | storeRetain => exact .actOn (exec_storeRetain s) e fun _ => .of_eq (storeRetainOp_dm ..)
  | storeWake => exact .actOn (exec_storeWake s) e fun _ => .of_eq (storeWakeOp_dm ..)
  | storePurge => exact .actOn (exec_storePurge s) e fun _ => .of_eq (storePurgeOp_dm ..)
  | storePurgeDone => exact .actOn (exec_storePurgeDone s) e fun _ => .of_eq (settle_dm _)
  | monitorSetup => exact .actOn (exec_monitorSetup s) e fun _ => monitorSetupOp_change _ _ (taken s)
  | recorderSetup => exact .actOn (exec_recorderSetup s) e fun _ => .of_eq (recorderSetupOp_dm ..)
  | statusRead => exact .actOn (exec_statusRead s) e fun _ => .stands
  | statusClear => exact .actOn (exec_statusClear s) e fun _ => .stands
  | linkReset => exact .actOn (exec_linkReset s) e fun _ => linkResetOp_change _ (taken s)
  | linkResetComplete => exact .actOn (exec_linkResetComplete s) e fun _ => .stands
  | unknownKind => exact .actOn (exec_unknownKind s) e fun _ => .stands
  | writeBurstServed =>
    simp only [exec, execWriteBurstServed] at e
    split at e
    · split at e <;> cases e
      rw [finish_dm]; exact (writeServed_mayEvaluate _ (fresh s)).change
    · cases e; exact .stands
  | readBurstServed =>
    simp only [exec, execReadBurstServed] at e
    split at e
    · split at e <;> cases e
      exact .of_eq (by rw [finish_dm, readServed_dm, fresh_dm])
    · cases e; exact .stands
  | refreshDue => cases e; exact .stands
  | refreshEnd => cases e; exact .stands
  | wakeEnd => exact .event e (endWake_mayEvaluate (fresh s)).change
  | responseTimerExpiry =>
    exact .actOn (exec_responseTimerExpiry s) e fun _ => .of_eq (by rw [settle_dm]; exact endAttempt_dm ..)
  | recorderState ready => cases e; exact settled (takeRecorderState_dm (fresh s) ready)
  | cardAccepted echo => cases e; exact settled (takeAccepted_dm (fresh s) echo.toNat)
  | cardSpoiled echo reason => cases e; exact settled (takeSpoiled_dm (fresh s) echo.toNat reason)
  | recorderRestarted => cases e; exact settled (takeRestarted_dm (fresh s))
  | recorderMessageDropped r =>
    exact .actOn (exec_recorderMessageDropped s r) e fun _ => .of_eq (by rw [settle_dm, takeMessage_dm, fresh_dm])
  | returnSendEnd => exact .event e (.of_eq (endSending_dm _))

theorem step_monitorChange (e : step s = .next t) : MonitorChange s.dm t.dm := by
  unfold step at e
  split at e
  · cases e; exact .stands
  · rename_i c cs _
    exact exec_monitorChange (s := { s with pending := cs }) e

end Change

/-! ### The thresholds and the last evaluation (R87, R89, R178) -/

/-- R178: three threshold words are used only as a rising triple, and the defaults rise. -/
theorem configItems_rising (words : List Word16) :
    (configItems words).floor < (configItems words).enter ∧ (configItems words).enter < (configItems words).leave
      ∧ (configItems words).leave ≤ 255 := by
  unfold configItems
  split
  · simp only [ConfigItems.judged]
    split
    · rename_i usable
      simp only [usableTriple, Bool.and_eq_true, decide_eq_true_eq] at usable
      obtain ⟨⟨⟨_, lower⟩, upper⟩, top⟩ := usable
      exact ⟨lower, upper, top⟩
    · decide
  · decide

theorem MonitorChange.rising {d e : Dm} (change : MonitorChange d e)
    (rising : d.floor < d.enter ∧ d.enter < d.leave ∧ d.leave ≤ 255) :
    e.floor < e.enter ∧ e.enter < e.leave ∧ e.leave ≤ 255 := by
  cases change with
  | stands | evaluated | linkReset => exact rising
  | loaded words => exact configItems_rising words
  | replaced m on accepted => exact ((monitorCheck_iff m on).1 accepted).1
  | powerOn => decide

/-- R83, R176: only an evaluation makes the monitor THIN, and what empties the last evaluation makes it NORMAL. -/
theorem MonitorChange.thinHasLast {d e : Dm} (change : MonitorChange d e) (last : d.state = .thin → d.last ≠ none) :
    e.state = .thin → e.last ≠ none := by
  cases change with
  | stands | loaded | replaced => exact last
  | evaluated h => exact fun _ => Option.some_ne_none _
  | linkReset | powerOn => nofun

/-- Settles O8, by what one step can make of the monitor (`step_monitorChange`). -/
theorem stepKeepsMonitor : Obligations.StepKeepsMonitor := fun _ _ rising last e =>
  ⟨(step_monitorChange e).rising rising, (step_monitorChange e).thinHasLast last⟩

end Sys2Proof.Machine
end

section
/-! SUPPORT. A header that is evaluated, MONITOR SETUP and RECORDER SETUP as whole commands (R82, R83, R87, R89, R164). The
statements O25 and O57. -/

namespace Sys2Proof.Machine

-- Checked one after another, as the tests are, to hold the memory and the threads down.
set_option Elab.async false

/-! ### Table 5-2 (R83) -/

theorem nextDensity_normal {d : Dm} (state : d.state = .normal) (db : Nat) :
    nextDensity d db = if db < d.enter then .thin else .normal := by
  unfold nextDensity
  rw [state]

theorem nextDensity_thin {d : Dm} (state : d.state = .thin) (db : Nat) :
    nextDensity d db = if d.leave < db then .normal else .thin := by
  unfold nextDensity
  rw [state]

/-- Settles O25: the header is evaluated (`takeHeader_evaluates`), nothing that follows touches the monitor, and Table 5-2 is
`nextDensity`. -/
theorem headerEvaluatesDensity : Obligations.HeaderEvaluatesDensity := by
  intro s h head active noFrame hw hh notLeader
  have monitor : (finish (settle (takeHeader h (taken s)))).dm = s.dm.evaluate h := by
    rw [finish_dm, settle_dm, takeHeader_evaluates hw hh notLeader]
    rfl
  refine ⟨_, frameHeader_taken head active noFrame, ?_⟩
  rw [monitor]
  exact ⟨rfl, rfl, rfl, rfl, rfl,
    fun normal low => (nextDensity_normal normal _).trans (if_pos low),
    fun normal high => (nextDensity_normal normal _).trans (if_neg (Nat.not_lt.2 high)),
    fun thin low => (nextDensity_thin thin _).trans (if_neg (Nat.not_lt.2 low)),
    fun thin high => (nextDensity_thin thin _).trans (if_pos high)⟩

/-! ### MONITOR SETUP (R87, R89) -/

theorem flag?_bit {b : Byte} (bit : b = 0 ∨ b = 1) : flag? b = some (b == 1) := by rcases bit with rfl | rfl <;> rfl

theorem bit_of_flag? {b : Byte} {on : Bool} (e : flag? b = some on) : b = 0 ∨ b = 1 := by
  unfold flag? at e
  split at e
  · exact .inl (BitVec.eq_of_toNat_eq ‹_›)
  · exact .inr (BitVec.eq_of_toNat_eq ‹_›)
  · cases e

section Monitor
variable {s : State} {tag : Byte} {m : MonitorFields}

theorem exec_monitorSetup_taken {floor enter leave : Nat} {enable : Byte}
    (h : mgmtHead s = some (tag, .monitorSetup floor enter leave enable)) :
    exec .monitorSetup s = .next (finish (monitorSetupOp tag ⟨floor, enter, leave, enable⟩ (taken s))) := by
  rw [exec_monitorSetup]; simp [headMonitorSetup, h, actOn]

/-- R87: thresholds that do not rise up to 255, or an enable other than 0 and 1, fail the checks. -/
theorem monitorCheck_bad (bad : ¬ (m.floor < m.enter ∧ m.enter < m.leave ∧ m.leave ≤ 255)
    ∨ (m.enable ≠ 0 ∧ m.enable ≠ 1)) : monitorCheck m = none := by
  refine Option.eq_none_iff_forall_ne_some.2 fun on accepted => ?_
  obtain ⟨rising, flag⟩ := (monitorCheck_iff m on).1 accepted
  rcases bad with notRising | ⟨notOff, notOn⟩
  · exact notRising rising
  · exact (bit_of_flag? flag).elim notOff notOn

theorem monitorSetupOp_refused (refused : monitorCheck m = none) :
    monitorSetupOp tag m s = placeReply tag 0x4B (.refused .badField) s := by
  unfold monitorSetupOp
  rw [refused]

theorem monitorSetupOp_accepted {on : Bool} (accepted : monitorCheck m = some on) :
    monitorSetupOp tag m s = placeReply tag 0x4B (.ok (.monitor m.floor m.enter m.leave on s.dm.state))
      (warnLate s.dm on { s with dm := s.dm.setTo m on }) := by
  unfold monitorSetupOp
  rw [accepted]

/-- R89: a THIN state that began while notices were off is told from the last evaluation. -/
theorem warnLate_thin {d : Dm} {e : Evaluation} (off : d.enable = false) (thin : d.state = .thin) (last : d.last = some e) :
    warnLate d true s = raiseNotice { plainNotice .densityWarn e.db with roll := e.roll, ordinal := e.ordinal } s := by
  unfold warnLate
  rw [if_pos ⟨off, rfl, thin⟩, last]
  rfl

theorem warnLate_quiet {d : Dm} {on : Bool} (quiet : d.enable = true ∨ on = false ∨ d.state = .normal) :
    warnLate d on s = s := by
  unfold warnLate
  rw [if_neg]
  rintro ⟨off, turnedOn, thin⟩
  rcases quiet with e | e | e
  · rw [off] at e; cases e
  · rw [turnedOn] at e; cases e
  · rw [thin] at e; cases e

end Monitor

/-! ### RECORDER SETUP (R164) -/

section Recorder
variable {s : State} {tag : Byte} {pr timeout : Nat}

theorem exec_recorderSetup_taken (h : mgmtHead s = some (tag, .recorderSetup pr timeout)) :
    exec .recorderSetup s = .next (finish (recorderSetupOp tag pr timeout (taken s))) := by
  rw [exec_recorderSetup]; simp [headRecorderSetup, h, actOn]

theorem recorderRanges_iff : (inRange 50 200 pr && inRange 250 8000 timeout) = true
    ↔ 50 ≤ pr ∧ pr ≤ 200 ∧ 250 ≤ timeout ∧ timeout ≤ 8000 := by
  rw [Bool.and_eq_true, inRange_iff, inRange_iff, and_assoc]

theorem recorderSetupOp_stored (inside : 50 ≤ pr ∧ pr ≤ 200 ∧ 250 ≤ timeout ∧ timeout ≤ 8000) :
    recorderSetupOp tag pr timeout s = placeReply tag 0x4C (.ok (.recorder pr timeout))
      { s with cli := { s.cli with pr := pr, timeout := timeout } } := if_pos (recorderRanges_iff.2 inside)

theorem recorderSetupOp_refused (outside : ¬ (50 ≤ pr ∧ pr ≤ 200 ∧ 250 ≤ timeout ∧ timeout ≤ 8000)) :
    recorderSetupOp tag pr timeout s = placeReply tag 0x4C (.refused .badField) s :=
  if_neg (mt recorderRanges_iff.1 outside)

end Recorder

/-- Settles O57: a MONITOR SETUP by its checks (`monitorCheck_iff`) and by what it owes of a warning, a RECORDER SETUP by its
ranges. -/
theorem setupRecords : Obligations.SetupRecords := by
  refine ⟨fun s tag enable floor enter leave head => ?monitor, fun s tag pr timeout head => ?recorder⟩
  case monitor =>
    have completes := exec_monitorSetup_taken head
    refine ⟨fun bad => completes_command completes (monitorSetupOp_refused (monitorCheck_bad bad)), ?_⟩
    rintro lower upper top bit dm rfl r rfl
    have accepted : monitorCheck ⟨floor, enter, leave, enable⟩ = some (enable == 1) :=
      (monitorCheck_iff _ _).2 ⟨⟨lower, upper, top⟩, flag?_bit bit⟩
    refine ⟨fun e off turnedOn thin last => ?_, fun quiet => ?_⟩
    · refine completes_command completes ?_
      subst turnedOn
      rw [monitorSetupOp_accepted accepted]
      exact congrArg (placeReply tag 0x4B _) (warnLate_thin off thin last)
    · have standing : s.dm.enable = true ∨ (enable == 1) = false ∨ s.dm.state = .normal :=
        quiet.imp_right (.imp_left fun off => by rw [off]; rfl)
      refine completes_command completes ?_
      rw [monitorSetupOp_accepted accepted]
      exact congrArg (placeReply tag 0x4B _) (warnLate_quiet standing)
  case recorder =>
    have completes := exec_recorderSetup_taken head
    exact ⟨fun inside => completes_command completes (recorderSetupOp_stored inside),
      fun outside => completes_command completes (recorderSetupOp_refused outside)⟩

end Sys2Proof.Machine
end

section
/-! SUPPORT. The order of the Frame Store and the ranges of the numbers (R90, R111, R163, R164; Tables 6-1 and 9-1): the
relation `KeepsOrder` between the states before and after an operation, and what the Store Controller's own operations keep
of it. -/

namespace Sys2Proof.Machine

-- Checked one after another, as the tests are, to hold the memory and the threads down.
set_option Elab.async false

/-! ### The relation -/

/-- R90: what a slot of bank `bankOf n` may be while `banks` banks are enabled. -/
def Slot.suits (x : Slot) (n banks : Nat) : Prop :=
  (x = .free → bankOf n < banks) ∧ (x = .offline → banks ≤ bankOf n)

/-- R90: 512 slots, each FREE one in an enabled bank and each OFFLINE one in a bank that is not. -/
def Sc.FollowsBanks (sc : Sc) : Prop :=
  sc.slots.length = Config.slotCount ∧ ∀ n, n < Config.slotCount → (slotAt sc n).suits n sc.banks

/-- Table 6-1: the interval and the banks, stored and configured, lie in their ranges. -/
def Sc.SetupInRange (sc : Sc) : Prop :=
  ((2 ≤ sc.interval ∧ sc.interval ≤ 64) ∧ 1 ≤ sc.banks ∧ sc.banks ≤ 4)
    ∧ (2 ≤ sc.cfgInterval ∧ sc.cfgInterval ≤ 64) ∧ 1 ≤ sc.cfgBanks ∧ sc.cfgBanks ≤ 4

/-- R163: a batch number or a tray sequence. -/
def Numbered (n : Nat) : Prop := 1 ≤ n ∧ n ≤ 65535

/-- Table 9-1: the numbers of the CLI lie in their ranges. -/
def Cli.InRange (cli : Cli) : Prop :=
  (Numbered cli.batch ∧ Numbered cli.nextTray)
    ∧ (50 ≤ cli.pr ∧ cli.pr ≤ 200) ∧ 250 ≤ cli.timeout ∧ cli.timeout ≤ 8000

theorem slotsFollowBanks_iff (s : State) : SlotsFollowBanks s ↔ s.sc.FollowsBanks :=
  ⟨fun ⟨length, free, offline⟩ => ⟨length, fun n inside => ⟨free n inside, offline n inside⟩⟩,
    fun ⟨length, suits⟩ => ⟨length, fun n inside => (suits n inside).1, fun n inside => (suits n inside).2⟩⟩

theorem numbersInRange_iff (s : State) : NumbersInRange s ↔ s.sc.SetupInRange ∧ s.cli.InRange :=
  ⟨fun ⟨batch, tray, pr, timeout, interval, banks, cfg⟩ => ⟨⟨⟨interval, banks⟩, cfg⟩, ⟨batch, tray⟩, pr, timeout⟩,
    fun ⟨⟨⟨interval, banks⟩, cfg⟩, ⟨batch, tray⟩, pr, timeout⟩ => ⟨batch, tray, pr, timeout, interval, banks, cfg⟩⟩

/-- From `a` to `b` the store's setup stays in its ranges and the slots go on following the banks. A field left out is one
that the operation does not touch. -/
structure Sc.Kept (a b : Sc) : Prop where
  setup : a.SetupInRange → b.SetupInRange := by exact id
  slots : a.FollowsBanks → b.FollowsBanks := by exact id

theorem Sc.Kept.trans {a b c : Sc} (h : Sc.Kept a b) (g : Sc.Kept b c) : Sc.Kept a c where
  setup := g.setup ∘ h.setup
  slots := g.slots ∘ h.slots

/-- From `s` to `t` the store is kept in order and the numbers of the CLI in their ranges. -/
structure KeepsOrder (s t : State) : Prop where
  sc  : Sc.Kept s.sc t.sc := by exact {}
  cli : s.cli.InRange → t.cli.InRange := by exact id

theorem KeepsOrder.refl (s : State) : KeepsOrder s s := {}

theorem KeepsOrder.trans {s t u : State} (h : KeepsOrder s t) (g : KeepsOrder t u) : KeepsOrder s u where
  sc := h.sc.trans g.sc
  cli := g.cli ∘ h.cli

theorem KeepsOrder.numbers {s t : State} (h : KeepsOrder s t) (inRange : NumbersInRange s) : NumbersInRange t := by
  rw [numbersInRange_iff] at inRange ⊢
  exact ⟨h.sc.setup inRange.1, h.cli inRange.2⟩

theorem KeepsOrder.slots {s t : State} (h : KeepsOrder s t) (follow : SlotsFollowBanks s) : SlotsFollowBanks t :=
  (slotsFollowBanks_iff t).2 (h.sc.slots ((slotsFollowBanks_iff s).1 follow))

/-- The SC's part changes as one that is kept, and nothing else does. -/
theorem order_sc {s : State} {sc : Sc} (h : Sc.Kept s.sc sc) : KeepsOrder s { s with sc := sc } := { sc := h }

/-! ### One slot (R90 to R92, R98) -/

theorem held_suits (state : ChipState) (chip : Chip) (n banks : Nat) : (Slot.held state chip).suits n banks :=
  ⟨nofun, nofun⟩

/-- R90: a slot that holds no chip is FREE or OFFLINE by its bank. -/
theorem empty_suits (n banks : Nat) : (if bankOf n < banks then Slot.free else .offline).suits n banks := by
  split
  · exact ⟨fun _ => ‹_›, nofun⟩
  · exact ⟨nofun, fun _ => Nat.le_of_not_lt ‹_›⟩

theorem kept_setSlot {sc : Sc} {n : Nat} {v : Slot} (suits : v.suits n sc.banks) : Sc.Kept sc (setSlot n v sc) where
  slots := fun ⟨length, others⟩ => by
    refine ⟨(setSlot_slots_length n v sc).trans length, fun k inside => ?_⟩
    by_cases same : n = k
    · subst same
      rw [slotAt_setSlot_same v (length ▸ inside)]
      exact suits
    · rw [slotAt_setSlot_other v same]
      exact others k inside

section Slots
variable {sc : Sc}

theorem kept_freeSlot (n : Nat) : Sc.Kept sc (freeSlot n sc) := kept_setSlot (empty_suits n sc.banks)

theorem kept_moveSlot {n : Nat} {before after : ChipState} {change : Chip → Chip} :
    Sc.Kept sc (moveSlot n before after change sc) := by
  unfold moveSlot
  split
  · split
    · exact kept_setSlot (held_suits ..)
    · exact {}
  all_goals exact {}

theorem kept_changeChip {n : Nat} {change : Chip → Chip} : Sc.Kept sc (changeChip n change sc) := by
  unfold changeChip
  split
  · exact kept_setSlot (held_suits ..)
  all_goals exact {}

theorem kept_releaseSlot {n : Nat} {before : ChipState} : Sc.Kept sc (releaseSlot n before sc) := by
  unfold releaseSlot
  split
  · exact kept_freeSlot n
  · exact {}

theorem kept_freeReplaced {p : SheetPos} : Sc.Kept sc (freeReplaced p sc) := by
  cases p with
  | filed slot roll ordinal flags => exact kept_freeSlot slot
  | empty | spilled => exact {}

theorem kept_openSlot {k : CardKind} : Sc.Kept sc (openSlot k sc) := by
  cases k with
  | chip job position copy slot => exact kept_moveSlot
  | separatorOpen | separatorClose => exact {}

theorem kept_queueSlots {job pos : Nat} {cards : List CardPos} : Sc.Kept sc (queueSlots job pos cards sc) := by
  induction cards generalizing pos sc with
  | nil => exact {}
  | cons c cards ih => exact kept_moveSlot.trans ih

theorem kept_freeCards {cards : List CardPos} : Sc.Kept sc (freeCards cards sc) := by
  induction cards generalizing sc with
  | nil => exact {}
  | cons c cards ih => exact kept_releaseSlot.trans ih

/-- R78, R79: a waiting burst is dropped before its slot is given back. -/
theorem kept_dropSlot {slot : Option Nat} : Sc.Kept sc (dropSlot slot sc) := by
  have dropped : Sc.Kept sc { sc with write := none } := {}
  unfold dropSlot
  split
  · exact {}
  · rename_i n
    split
    · split
      · exact {}
      · exact dropped.trans (kept_freeSlot n)
    · exact kept_freeSlot n

theorem kept_endRead (r : ReadBurst) : Sc.Kept sc (endRead r sc) := by
  have ended : Sc.Kept sc { sc with read := none } := {}
  unfold endRead
  extract_lets
  split
  · exact ended.trans (kept_freeSlot r.slot)
  · exact ended

theorem kept_endWrite (w : WriteBurst) : Sc.Kept sc (endWrite w sc) := by
  have ended : Sc.Kept sc { sc with write := none, dram := writeBurstDots w sc.dram } := {}
  unfold endWrite
  extract_lets
  split
  · exact ended.trans (kept_freeSlot w.slot)
  · exact ended

end Slots

/-! ### All slots (R90, R93, R111, R112) -/

/-- R111: whatever the slots were, they follow the banks that are enabled now. -/
theorem applyBanks_followsBanks {sc : Sc} (n : Nat) (length : sc.slots.length = Config.slotCount) :
    (applyBanks n sc).FollowsBanks := by
  refine ⟨by simpa [applyBanks] using length, fun i inside => ?_⟩
  rw [applyBanks_slotAt n sc i (length ▸ inside)]
  split
  · exact held_suits ..
  all_goals exact empty_suits i n

theorem purgeSlots_followsBanks {sc : Sc} (length : sc.slots.length = Config.slotCount) :
    (purgeSlots sc).FollowsBanks := applyBanks_followsBanks _ (by simpa using length)

/-- R112 step 1: the purge leaves the setup as it is. -/
theorem kept_purgeSlots (sc : Sc) : Sc.Kept sc (purgeSlots sc) where
  slots := fun follows => purgeSlots_followsBanks follows.1

/-- R112 step 4: the configured banks and interval are in range themselves. -/
theorem kept_restoreSetup (sc : Sc) : Sc.Kept sc (restoreSetup sc) where
  setup := fun ⟨_, interval, banks⟩ => ⟨⟨interval, banks⟩, interval, banks⟩
  slots := fun follows => applyBanks_followsBanks sc.cfgBanks follows.1

theorem emptySlots_length {banks : Nat} (h : banks ≤ 4) : (emptySlots banks).length = Config.slotCount := by
  simp only [emptySlots, List.length_append, List.length_replicate, Config.slotsPerBank, Config.bankCount,
    Config.slotCount]
  omega

/-- R90, R93: at the end of loading every slot is FREE or OFFLINE by its bank. -/
theorem slotAt_emptySlots {sc : Sc} {banks n : Nat} (h : banks ≤ 4) (slots : sc.slots = emptySlots banks)
    (inside : n < Config.slotCount) : slotAt sc n = if bankOf n < banks then .free else .offline := by
  have enabled : bankOf n < banks ↔ n < Config.slotsPerBank * banks := by
    simp only [bankOf, Config.slotsPerBank]; omega
  rw [slotAt, getD_inside (by rwa [slots, emptySlots_length h])]
  simp only [slots, emptySlots, enabled]
  split
  · rw [List.getElem_append_left (by simpa using ‹_›), List.getElem_replicate]
  · rw [List.getElem_append_right (by simpa using Nat.le_of_not_lt ‹_›), List.getElem_replicate]

theorem emptySlots_followsBanks {sc : Sc} (h : sc.banks ≤ 4) (slots : sc.slots = emptySlots sc.banks) :
    sc.FollowsBanks :=
  ⟨slots ▸ emptySlots_length h, fun n inside => by
    rw [slotAt_emptySlots h slots inside]; exact empty_suits n sc.banks⟩

/-- R93 step 2: as LINK RESET begins a slot stands, or becomes FREE or OFFLINE by its bank. -/
theorem resetSlots_slotAt {sc a : Sc} (slots : a.slots = resetSlots sc) {n : Nat} (inside : n < sc.slots.length) :
    slotAt a n = slotAt sc n ∨ slotAt a n = if bankOf n < sc.banks then .free else .offline := by
  simp only [slotAt, slots, resetSlots, List.getD_eq_getElem?_getD, List.getElem?_map, List.getElem?_zipIdx,
    List.getElem?_eq_getElem inside, Option.map_some, Option.getD_some, Nat.zero_add]
  cases sc.slots[n] with
  | free | offline => exact .inl rfl
  | held state chip =>
    cases slotBusy sc n
    · exact .inr rfl
    · exact .inl rfl

/-! ### Bursts and refreshes (R99 to R105) -/

section Bursts
variable {sc : Sc}

theorem kept_grantBursts : Sc.Kept sc (grantBursts sc) := by
  unfold grantBursts
  split
  · split
    · split
      · exact {}
      · split <;> exact {}
    · exact {}
  all_goals exact {}

theorem kept_storeIdle : Sc.Kept sc (storeIdle sc) := by
  unfold storeIdle
  split
  · split
    · exact kept_grantBursts
    · exact {}
  · split
    · exact {}
    · split <;> exact {}

theorem kept_storeSettle : Sc.Kept sc (storeSettle sc) := by
  have ended : Sc.Kept sc { sc with forced := none } := {}
  unfold storeSettle
  split
  · exact {}
  · split
    · split
      · exact {}
      · split
        · exact {}
        · split
          · exact {}
          · exact ended.trans kept_storeIdle
    · exact kept_storeIdle

theorem kept_storeAfter : Sc.Kept sc (storeAfter sc) :=
  have asked : Sc.Kept sc { sc with askAgain := false } := {}
  asked.trans kept_storeSettle

theorem kept_dueMoment : Sc.Kept sc (dueMoment sc) := by
  have forced : Sc.Kept sc { sc with forced := some 1 } := {}
  unfold dueMoment
  split
  · exact {}
  · split
    · split
      · exact {}
      · exact forced.trans kept_storeSettle
    · exact {}

theorem kept_refreshDueStep : Sc.Kept sc (refreshDueStep sc) := by
  have restarted : Sc.Kept sc { sc with timer := some sc.interval } := {}
  unfold refreshDueStep
  split
  · exact {}
  · extract_lets
    split
    · split <;> exact {}
    · exact restarted.trans kept_dueMoment

theorem kept_refreshEndStep : Sc.Kept sc (refreshEndStep sc) := by
  have ended : Sc.Kept sc (endRefresh sc) := by
    unfold endRefresh
    split <;> exact {}
  unfold refreshEndStep
  split
  · exact ended.trans kept_storeSettle
  · exact {}

/-- R93: the store's part of LINK RESET. -/
theorem kept_resetStore : Sc.Kept sc (resetStore sc) := by
  unfold resetStore
  refine Sc.Kept.trans { slots := ?_ } kept_storeSettle
  rintro ⟨length, suits⟩
  refine ⟨by simpa [resetSlots] using length, fun n inside => ?_⟩
  rcases resetSlots_slotAt (a := { sc with slots := resetSlots sc }) rfl (length ▸ inside) with stands | freed
  · exact stands ▸ suits n inside
  · exact freed ▸ empty_suits n sc.banks

end Bursts

end Sys2Proof.Machine
end

section
/-! SUPPORT. What the sets, the Card Queue, the cards and everything that follows from a change keep of the store's order and
of the numbers (R113 to R163). -/

namespace Sys2Proof.Machine

-- Checked one after another, as the tests are, to hold the memory and the threads down.
set_option Elab.async false

variable {s t : State}

theorem order_raiseNotice (n : Notice) (s : State) : KeepsOrder s (raiseNotice n s) where
  sc := by rw [raiseNotice_sc]; exact {}
  cli := by rw [raiseNotice_cli]; exact id

/-! ### The SAU and the Card Queue (R113 to R130) -/

theorem order_emptySet (n : Nat) (s : State) : KeepsOrder s (emptySet n s) := {}

theorem order_closeSet (n : Nat) (short : Bool) (s : State) : KeepsOrder s (closeSet n short s) := by
  unfold closeSet
  extract_lets
  split <;> exact {}

theorem order_takeJob (j : Job) (s : State) : KeepsOrder s (takeJob j s) := { sc := kept_queueSlots }

theorem order_placeJob (j : Job) (s : State) : KeepsOrder s (placeJob j s) := { sc := kept_queueSlots }

theorem order_placeSpill (n opening : Nat) (s : State) : KeepsOrder s (placeSpill n opening s) := by
  unfold placeSpill
  extract_lets
  split
  · exact (order_placeJob _ s).trans {}
  · exact {}

theorem order_placeMarker (s : State) : KeepsOrder s (placeMarker s) := by
  unfold placeMarker
  extract_lets
  split <;> exact {}

theorem order_placeItem (x : BacklogItem) (s : State) : KeepsOrder s (placeItem x s) := by
  cases x with
  | set n => exact (order_placeJob _ s).trans (order_emptySet n _)
  | group => exact (order_placeJob _ s).trans {}
  | spill n opening => exact order_placeSpill n opening s
  | marker => exact order_placeMarker s

theorem order_placeHead (s : State) : KeepsOrder s (placeHead s) := by
  unfold placeHead
  split
  · exact {}
  · rename_i x xs _
    exact KeepsOrder.trans (t := { s with sau := { s.sau with backlog := xs } }) {} (order_placeItem x _)

theorem order_drainBacklog (s : State) : KeepsOrder s (drainBacklog s) := by
  have served (n : Nat) (u : State) : KeepsOrder u (serveBacklog n u) := by
    induction n generalizing u with
    | zero => exact {}
    | succ n ih =>
      unfold serveBacklog
      split
      · exact (order_placeHead u).trans (ih _)
      · exact {}
  exact served ..

theorem order_endSet (n roll ordinal : Nat) (s : State) : KeepsOrder s (endSet n roll ordinal s) := by
  unfold endSet
  extract_lets
  split
  · exact order_emptySet n s
  · split
    · exact order_closeSet n false s
    · extract_lets
      split
      · have held (r : SetRecord) : KeepsOrder s (changeSet n r s) := {}
        exact (held _).trans (order_raiseNotice ..)
      · exact (order_closeSet n true s).trans (order_raiseNotice ..)

theorem order_forceOut (n roll ordinal detail : Nat) (s : State) : KeepsOrder s (forceOut n roll ordinal detail s) :=
  (order_closeSet n true s).trans (order_raiseNotice ..)

theorem order_openOrForce (x : Target) (s : State) : KeepsOrder s (openOrForce x s) := by
  unfold openOrForce
  split
  · exact {}
  · split
    · exact {}
    · rename_i n _
      have opened (m : Nat) (u : State) : KeepsOrder u (openRecord m u) := {}
      have passed (u : State) : KeepsOrder u (setPassMode true u) := {}
      refine ((order_forceOut n x.roll x.ordinal 1 s).trans (order_drainBacklog _)).trans ?_
      extract_lets
      split
      · exact opened ..
      · exact passed _

theorem order_endBatch (x : Target) (s : State) : KeepsOrder s (endBatch x s) := by
  unfold endBatch
  simp only [batchTail]
  split
  · exact {}
  · exact (order_endSet _ x.roll x.ordinal s).trans {}

theorem order_targetOp (x : Target) (s : State) : KeepsOrder s (targetOp x s) := by
  refine KeepsOrder.trans (t := { s with rs := { s.rs with intake := .idle } }) {} ?_
  unfold targetOp
  extract_lets
  split
  · unfold startTargetOp
    split
    · exact order_openOrForce x _
    · exact (((order_raiseNotice ..).trans (order_endSet ..)).trans (order_drainBacklog _)).trans (order_openOrForce x _)
  · unfold endTargetOp
    split
    · exact {}
    · exact ((order_endSet ..).trans (order_drainBacklog _)).trans {}
  · exact ((order_endBatch x _).trans {}).trans (order_drainBacklog _)

theorem order_askRelease (f : FrameCtx) (s : State) : KeepsOrder s (askRelease f s) := by
  refine KeepsOrder.trans (t := { s with sc := { s.sc with askAgain := false } }) {} ?_
  unfold askRelease pressureRelease
  split
  · exact order_forceOut ..
  · split
    · exact {}
    · unfold requestSpill
      split
      · exact {}
      · extract_lets
        split <;> exact {}

theorem order_releaseReservation (s : State) : KeepsOrder s (releaseReservation s) := by
  unfold releaseReservation
  split <;> exact {}

/-- R91, R121 to R124: the frame's slot is FILED or QUEUED, and a replaced one is given back. -/
theorem order_fileFrame (f : FrameCtx) (slot : Nat) (s : State) : KeepsOrder s (fileFrame f slot s) := by
  unfold fileFrame
  split
  · unfold fileIntoSet
    extract_lets r title before retake extra sc1 r1 s1
    have filed : KeepsOrder s s1 := { sc := kept_freeReplaced.trans kept_moveSlot }
    split
    · exact filed.trans (order_closeSet ..)
    · exact filed
  · exact {}
  · unfold fileIntoGroup
    extract_lets sc1 frame sau1 s1
    have filed : KeepsOrder s s1 := { sc := kept_moveSlot }
    split
    · exact filed.trans {}
    · exact filed
  · exact (order_sc kept_moveSlot).trans ((order_takeJob ..).trans {})

/-! ### The card path (R138 to R163) -/

theorem order_pump (s : State) : KeepsOrder s (pump s) := by
  have next (c : Card) (slot : Nat) (u : State) : KeepsOrder u (nextStep c slot u) := by
    unfold nextStep
    split
    · exact {}
    · split <;> exact {}
  unfold pump
  split
  · exact {}
  · split
    · exact {}
    · exact {}
    · split
      · unfold pumpChip
        split
        · exact KeepsOrder.trans (t := sendLine _ _ _ s) {} (next ..)
        · exact next ..
      all_goals exact {}

theorem order_openCard (k : CardKind) (attempt : Nat) (s : State) : KeepsOrder s (openCard k attempt s) := by
  unfold openCard
  exact KeepsOrder.trans { sc := kept_openSlot } (order_pump _)

theorem order_endSlot (k : CardKind) (v : Verdict) (s : State) : KeepsOrder s (endSlot k v s) := by
  unfold endSlot
  split
  · split
    · exact order_sc kept_releaseSlot
    · exact order_sc kept_moveSlot
  all_goals exact {}

theorem numbered_one : Numbered 1 := by unfold Numbered; decide

/-- R163: 65,535 is followed by 1. -/
theorem nextNumber_numbered {n : Nat} (h : Numbered n) : Numbered (nextNumber n) := by
  unfold Numbered at h ⊢
  unfold nextNumber
  split <;> omega

/-- R159 step 4: the tray sequence moves on when the copy is done. -/
theorem order_clearCard (c : Card) (v : Verdict) (s : State) : KeepsOrder s (clearCard c v s) where
  cli := fun ⟨⟨batch, tray⟩, setup⟩ => ⟨⟨batch, by
    unfold clearCard
    cases v.done
    · exact tray
    · exact nextNumber_numbered tray⟩, setup⟩

theorem order_copyDone (k : CardKind) (s : State) : KeepsOrder s (copyDone k s) := by
  unfold copyDone
  split
  · unfold jobDone
    split
    · exact {}
    · extract_lets
      split <;> exact {}
  all_goals
    unfold separatorDone
    split
    · exact {}
    · split <;> exact {}

theorem order_endAttempt (c : Card) (v : Verdict) (s : State) : KeepsOrder s (endAttempt c v s) := by
  have cleared := (order_endSlot c.kind v s).trans (order_clearCard c v _)
  have reported (u : State) : KeepsOrder u (copyDone c.kind { u with cs := { u.cs with last := c.kind.asLast } }) :=
    KeepsOrder.trans {} (order_copyDone c.kind _)
  cases v with
  | completed => exact cleared.trans (reported _)
  | retry cause => exact cleared.trans {}
  | rejected cause => exact (cleared.trans (order_raiseNotice ..)).trans (reported _)

theorem order_withdrawRetry (k : CardKind) (s : State) : KeepsOrder s (withdrawRetry k s) := by
  have slot : KeepsOrder s (withdrawSlot k s) := by
    unfold withdrawSlot
    split
    · split
      · exact order_sc kept_releaseSlot
      · exact {}
    all_goals exact {}
  refine (slot.trans { cli := ?_ }).trans (order_copyDone k _)
  exact fun ⟨⟨batch, tray⟩, setup⟩ => ⟨⟨batch, nextNumber_numbered tray⟩, setup⟩

theorem order_takeAccepted (echo : Nat) (s : State) : KeepsOrder s (takeAccepted echo s) := by
  unfold takeAccepted
  split
  · exact order_endAttempt ..
  · refine (order_raiseNotice (lateNotice s 0xD1 echo) s).trans ?_
    unfold lateAccepted
    extract_lets
    split
    · split
      · exact order_withdrawRetry ..
      · exact {}
    · exact {}

theorem order_takeSpoiled (echo : Nat) (reason : SpoilReason) (s : State) :
    KeepsOrder s (takeSpoiled echo reason s) := by
  unfold takeSpoiled
  split
  · exact order_endAttempt ..
  · exact order_raiseNotice ..

theorem order_takeRecorderState (ready : Bool) (s : State) : KeepsOrder s (takeRecorderState ready s) := by
  unfold takeRecorderState
  split
  · exact {}
  · exact KeepsOrder.trans {} (order_pump _)

theorem order_takeRestarted (s : State) : KeepsOrder s (takeRestarted s) := by
  refine KeepsOrder.trans (t := { s with cli := { s.cli with ready := false } }) {} ?_
  unfold takeRestarted
  extract_lets
  split
  · exact (order_raiseNotice ..).trans (order_endAttempt ..)
  · exact order_raiseNotice ..

theorem order_takeMessage (m : RecorderMessage) (s : State) : KeepsOrder s (takeMessage m s) := by
  cases m with
  | state ready => exact order_takeRecorderState ready s
  | accepted echo => exact order_takeAccepted echo s
  | spoiled echo reason => exact order_takeSpoiled echo reason s
  | restarted => exact order_takeRestarted s

/-- R163: the batch number moves on and the tray sequence begins again. -/
theorem order_removeMarker (s : State) : KeepsOrder s (removeMarker s) := by
  unfold removeMarker
  refine KeepsOrder.trans { cli := ?_ } (order_raiseNotice ..)
  exact fun ⟨⟨batch, _⟩, setup⟩ => ⟨⟨nextNumber_numbered batch, numbered_one⟩, setup⟩

/-! ### What follows from a change (R142) -/

theorem order_settleCards (e : settleCards s = some t) : KeepsOrder s t := by
  unfold settleCards at e
  split at e
  · cases e
    refine KeepsOrder.trans (t := { s with freeCount := s.freeCount + 1 }) {} ?_
    unfold markerOrRelease
    extract_lets
    split
    · exact order_removeMarker _
    · exact order_askRelease ..
  · cases e; exact order_removeMarker s
  · cases e; exact order_askRelease ..
  · simp only [boundaryCard, Option.map_eq_some_iff] at e
    obtain ⟨⟨u, k, a⟩, chosen, rfl⟩ := e
    split at chosen
    · obtain ⟨cs, rfl⟩ := chooseCard_cs chosen
      exact KeepsOrder.trans {} (order_openCard ..)
    · cases chosen

theorem order_settleStep (e : settleStep s = some t) : KeepsOrder s t := by
  rcases settleStep_cases e with ⟨_, _, rfl⟩ | ⟨f, _, rfl⟩ | ⟨f, n, _, rfl⟩ | cards
  · exact order_placeHead s
  · exact {}
  · exact order_sc (kept_setSlot (held_suits ..)) |>.trans {}
  · exact order_settleCards cards

theorem order_settle (s : State) : KeepsOrder s (settle s) :=
  settle_keeps (P := KeepsOrder s) (fun _ _ h e => h.trans (order_settleStep e))
    (fun _ h => h.trans (order_sc kept_storeAfter)) {}

theorem order_storeOnly (s : State) : KeepsOrder s (storeOnly s) := order_sc kept_storeSettle

theorem order_beginWake (s : State) : KeepsOrder s (beginWake s) :=
  KeepsOrder.trans (t := { s with sc := { s.sc with mode := .waking } }) {} (order_settle _)

theorem order_finish (s : State) : KeepsOrder s (finish s) := by
  have met : KeepsOrder s (meetHeader s) := by
    unfold meetHeader
    split
    · exact order_beginWake s
    · exact {}
  refine met.trans ?_
  have told := (channel_frame (meetHeader s)).1
  unfold finish
  rw [told]
  exact {}

end Sys2Proof.Machine
end

section
/-! SUPPORT. What the intake and every command keep of the store's order and of the numbers. The statements O6 and O9. -/

namespace Sys2Proof.Machine

-- Checked one after another, as the tests are, to hold the memory and the threads down.
set_option Elab.async false

variable {s t : State}

/-! ### The intake (R55 to R80) -/

theorem order_takeHeader (h : Header) (s : State) : KeepsOrder s (takeHeader h s) := by
  have evaluated (m : Option Matched) : KeepsOrder s (evaluateHeader h m s) := by
    obtain ⟨n, e, _⟩ := evaluateHeader_frame h m s
    rw [e]
    exact {}
  have clamped (g : Geometry) (m : Option Matched) (u : State) : KeepsOrder u (noticeClamped g h m u) := by
    unfold noticeClamped
    split
    · exact order_raiseNotice ..
    · exact {}
  have floor (m : Option Matched) (rf : Nat) (u : State) : KeepsOrder u (floorTest h m rf u) := by
    unfold floorTest
    split
    · exact (order_raiseNotice ..).trans {}
    · exact (clamped _ m u).trans {}
  unfold takeHeader
  split
  · exact (order_raiseNotice ..).trans {}
  · split
    · exact {}
    · exact ((evaluated _).trans (order_raiseNotice ..)).trans {}
    · exact (evaluated _).trans (floor ..)
    · exact (evaluated _).trans (floor ..)

/-- R67: GAPPED is entered in the frame's slot record. -/
theorem order_enterGapped (slot : Nat) (s : State) : KeepsOrder s { s with sc := enterGapped slot s.sc } :=
  order_sc kept_changeChip

theorem order_workStep {f : FrameCtx} {g : Geometry} {slot : Nat} (e : workStep f g slot s = some t) :
    KeepsOrder s t := by
  have placed (f : FrameCtx) (inks : List Byte) (u : State) : KeepsOrder u (placeLine f g slot inks u) := by
    unfold placeLine
    split <;> exact {}
  have filled (u : State) : KeepsOrder u (fillLine f g slot u) := (order_enterGapped slot u).trans (placed ..)
  unfold workStep at e
  split at e
  · cases e
  · rename_i n samples _
    have resampled : KeepsOrder s (resampleLine f g slot samples s) := by
      unfold resampleLine
      split
      · exact filled s
      · extract_lets
        split
        · exact (order_enterGapped slot s).trans (placed ..)
        · exact placed ..
    split at e <;> cases e
    · exact filled s
    · exact resampled.trans {}
  · rename_i sent _
    have checked : KeepsOrder s (sentCheck f slot sent s) := by
      unfold sentCheck
      split
      · split
        · exact (order_enterGapped slot s).trans {}
        · exact {}
      · exact {}
    split at e <;> cases e
    · exact filled s
    · exact checked.trans {}
  · cases e
  · cases e; exact {}

theorem order_runWork (n : Nat) (s : State) : KeepsOrder s (runWork n s) := by
  induction n generalizing s with
  | zero => exact {}
  | succ n ih =>
    unfold runWork
    split
    · split
      · rename_i step; exact (order_workStep step).trans (ih _)
      · exact {}
    · exact {}

theorem order_takeCause (s : State) : KeepsOrder s (takeCause s) := by
  have popped : KeepsOrder s (popHead s) := {}
  unfold takeCause
  split
  · exact (popped.trans (order_takeHeader ..)).trans (order_settle _)
  · exact (popped.trans (order_targetOp ..)).trans (order_settle _)
  all_goals exact {}

theorem order_advance (s : State) : KeepsOrder s (advance s) := by
  have filed (u : State) : KeepsOrder u (fileOpen u) := by
    unfold fileOpen
    split
    · exact (order_fileFrame ..).trans {}
    all_goals exact {}
  refine (order_runWork workFuel s).trans ?_
  unfold advance
  extract_lets
  split
  · refine ((filed _).trans (order_settle _)).trans ?_
    unfold closeFrame
    extract_lets
    split
    · exact order_takeCause _
    · exact {}
  · exact order_storeOnly _

theorem order_implicitEnd (f : FrameCtx) (s : State) : KeepsOrder s (implicitEnd f s) :=
  ((order_raiseNotice ..).trans {}).trans (order_advance _)

theorem order_takeFrameHeader (h : Header) (s : State) : KeepsOrder s (takeFrameHeader h s) := by
  have popped : KeepsOrder s (popHead s) := {}
  unfold takeFrameHeader
  split
  · exact order_implicitEnd ..
  all_goals exact (popped.trans (order_takeHeader ..)).trans (order_settle _)

theorem order_takeLineRecord (n : Nat) (samples : List Byte) (s : State) :
    KeepsOrder s (takeLineRecord n samples s) := by
  unfold takeLineRecord
  split
  · unfold takeLine
    extract_lets
    split
    · exact KeepsOrder.trans {} (order_advance _)
    · exact {}
  all_goals exact {}

theorem order_takeFrameEndRecord (sent : Nat) (s : State) : KeepsOrder s (takeFrameEndRecord sent s) := by
  unfold takeFrameEndRecord
  split
  · exact KeepsOrder.trans (t := setWork (.fill (some sent)) s) {} (order_advance _)
  all_goals exact {}

theorem order_takeTarget (x : Target) (s : State) : KeepsOrder s (takeTarget x s) := by
  have popped : KeepsOrder s (popHead s) := {}
  unfold takeTarget
  split
  · exact order_implicitEnd ..
  all_goals exact (popped.trans (order_targetOp ..)).trans (order_settle _)

theorem order_takeLoss (k : FilmKind) (s : State) : KeepsOrder s (takeLoss k s) := by
  unfold takeLoss
  split
  · split
    · exact order_implicitEnd ..
    all_goals exact {}
  all_goals exact {}

theorem order_abortWith (f : FrameCtx) (lost : Notice) (s : State) : KeepsOrder s (abortWith f lost s) :=
  ((order_releaseReservation s).trans (order_raiseNotice lost _)).trans ((order_sc kept_dropSlot).trans {})

theorem order_intakeLinkLoss (s : State) : KeepsOrder s (intakeLinkLoss s) := by
  unfold intakeLinkLoss
  split
  case h_4 | h_5 | h_6 => exact {}
  all_goals exact order_abortWith ..

/-! ### Management records (R87, R107 to R112, R131, R132, R146, R164, R176) -/

theorem order_tableWriteOp (tag kind : Byte) (position : Nat) (content : List Byte) (s : State) :
    KeepsOrder s (tableWriteOp tag kind position content s) := by
  unfold tableWriteOp
  split
  · exact {}
  · split <;> exact {}

theorem order_setReleaseOp (tag : Byte) (n : Nat) (s : State) : KeepsOrder s (setReleaseOp tag n s) := by
  have released : KeepsOrder s (releaseSet n s) := by
    unfold releaseSet
    split
    · exact (order_closeSet ..).trans (order_drainBacklog _)
    · exact {}
  unfold setReleaseOp
  split
  · exact {}
  · exact (released.trans {}).trans (order_settle _)

theorem order_setDiscardOp (tag : Byte) (n : Nat) (s : State) : KeepsOrder s (setDiscardOp tag n s) := by
  have discarded (u : State) : KeepsOrder u (discardSet n u) := { sc := Sc.Kept.trans {} kept_freeCards }
  unfold setDiscardOp
  split
  · exact {}
  · extract_lets
    split
    case h_3 | h_4 => exact {}
    all_goals exact (KeepsOrder.trans {} (discarded _)).trans (order_settle _)

theorem order_cardCancelOp (tag : Byte) (s : State) : KeepsOrder s (cardCancelOp tag s) := by
  unfold cardCancelOp
  split
  · exact (KeepsOrder.trans {} (order_endAttempt ..)).trans (order_settle _)
  · exact {}

/-- R111: what STORE SETUP stores has passed its checks. -/
theorem setupRefusal_inRange {interval banks : Nat} (passed : setupRefusal interval banks s = none) :
    (2 ≤ interval ∧ interval ≤ 64) ∧ 1 ≤ banks ∧ banks ≤ 4 := by
  unfold setupRefusal at passed
  split at passed
  · cases passed
  · rename_i checked
    rw [Bool.not_eq_true', Bool.not_eq_false, Bool.and_eq_true, inRange_iff, inRange_iff] at checked
    exact checked

theorem order_storeSetupOp (tag : Byte) (interval banks : Nat) (s : State) :
    KeepsOrder s (storeSetupOp tag interval banks s) := by
  unfold storeSetupOp
  split
  · exact {}
  · rename_i passed
    have stored : Sc.Kept s.sc { applyBanks banks s.sc with interval := interval } :=
      { setup := fun ⟨_, cfg⟩ => ⟨setupRefusal_inRange passed, cfg⟩
        slots := fun follows => applyBanks_followsBanks banks follows.1 }
    exact ((order_sc stored).trans {}).trans (order_settle _)

theorem order_storeRetainOp (tag : Byte) (s : State) : KeepsOrder s (storeRetainOp tag s) := by
  unfold storeRetainOp
  split
  · split <;> exact {}
  all_goals exact {}

theorem order_storeWakeOp (tag : Byte) (s : State) : KeepsOrder s (storeWakeOp tag s) := by
  unfold storeWakeOp
  split
  · exact KeepsOrder.trans {} (order_beginWake _)
  all_goals exact {}

/-- R112, R148: the slots are freed, and a pending retry goes with its tray sequence. -/
theorem order_purgeAll (s : State) : KeepsOrder s (purgeAll s) where
  sc := kept_purgeSlots s.sc
  cli := fun ⟨⟨batch, tray⟩, setup⟩ => by
    rw [purgeAll_cli]
    unfold purgeRetry
    split
    · exact ⟨⟨batch, nextNumber_numbered tray⟩, setup⟩
    · exact ⟨⟨batch, tray⟩, setup⟩

theorem order_purgeLast (tag : Byte) (s : State) : KeepsOrder s (purgeLast tag s) := { sc := kept_restoreSetup s.sc }

theorem order_storePurgeOp (tag : Byte) (s : State) : KeepsOrder s (storePurgeOp tag s) := by
  have aborted : KeepsOrder s (purgeFrame s) := by
    unfold purgeFrame
    split
    case h_1 | h_2 => exact order_abortWith ..
    all_goals exact {}
  have again (u : State) : KeepsOrder u (againTarget u) := by
    unfold againTarget
    split
    · exact order_targetOp ..
    all_goals exact {}
  have ended (u : State) : KeepsOrder u (purgeEnd tag u) := by
    unfold purgeEnd
    split
    · exact {}
    · exact order_purgeLast tag u
  unfold storePurgeOp
  split
  · exact {}
  · exact (((aborted.trans (order_purgeAll _)).trans (again _)).trans (ended _)).trans (order_settle _)

theorem order_monitorSetupOp (tag : Byte) (m : MonitorFields) (s : State) : KeepsOrder s (monitorSetupOp tag m s) := by
  have warned (on : Bool) (u : State) : KeepsOrder u (warnLate s.dm on u) := by
    unfold warnLate
    split
    · split
      · exact order_raiseNotice ..
      · exact {}
    · exact {}
  unfold monitorSetupOp
  split
  · exact {}
  · exact (KeepsOrder.trans (t := { s with dm := s.dm.setTo m _ }) {} (warned ..)).trans {}

/-- R164: what RECORDER SETUP stores has passed its checks. -/
theorem order_recorderSetupOp (tag : Byte) (pr timeout : Nat) (s : State) :
    KeepsOrder s (recorderSetupOp tag pr timeout s) := by
  unfold recorderSetupOp
  split
  · rename_i checked
    obtain ⟨low, high, short, long⟩ := recorderRanges_iff.1 checked
    exact { cli := fun ⟨numbers, _⟩ => ⟨numbers, ⟨low, high⟩, short, long⟩ }
  · exact {}

/-- R93, R165: LINK RESET frees the slots and sets the batch number and the tray sequence to 1. -/
theorem order_linkResetOp (tag : Byte) (s : State) : KeepsOrder s (linkResetOp tag s) := by
  have abandoned : KeepsOrder s (emptyIntake (abandonCard s)) := by
    unfold abandonCard
    split <;> exact {}
  exact abandoned.trans { sc := kept_resetStore, cli := fun ⟨_, setup⟩ => ⟨⟨numbered_one, numbered_one⟩, setup⟩ }

/-! ### The links and the store's events -/

/-- R178: a value that is not usable, or not in its range, gives way to the default. -/
theorem loadedOr_inRange {lo hi default : Nat} (h : lo ≤ default ∧ default ≤ hi) (w : Word16) :
    lo ≤ loadedOr lo hi default w ∧ loadedOr lo hi default w ≤ hi := by
  unfold loadedOr
  split
  · rename_i usable
    exact (inRange_iff ..).1 (Bool.and_eq_true_iff.1 usable).2
  · exact h

/-- R177, R178: whatever the configuration memory holds, the items handed over lie in their ranges. -/
theorem configItems_inRange (words : List Word16) :
    (2 ≤ (configItems words).interval ∧ (configItems words).interval ≤ 64)
      ∧ (1 ≤ (configItems words).banks ∧ (configItems words).banks ≤ 4)
      ∧ (50 ≤ (configItems words).pr ∧ (configItems words).pr ≤ 200)
      ∧ 250 ≤ (configItems words).timeout ∧ (configItems words).timeout ≤ 8000 := by
  unfold configItems
  split
  · have timeout := loadedOr_inRange (lo := 25) (hi := 800) (default := 200) (by decide) (words.getD 5 0)
    refine ⟨loadedOr_inRange (by decide) _, loadedOr_inRange (by decide) _, loadedOr_inRange (by decide) _, ?_⟩
    simp only [ConfigItems.judged]
    omega
  · decide

theorem order_handOver (words : List Word16) (s : State) : KeepsOrder s (handOver (configItems words) s) := by
  obtain ⟨interval, banks, pr, timeout⟩ := configItems_inRange words
  exact
    { sc :=
        { setup := fun _ => ⟨⟨interval, banks⟩, interval, banks⟩
          slots := fun _ => emptySlots_followsBanks banks.2 rfl }
      cli := fun ⟨numbers, _⟩ => ⟨numbers, pr, timeout⟩ }

theorem order_takeRecord (r : LinkRecord) (s : State) : KeepsOrder s (takeRecord r s) := by
  have marked (k : FilmKind) (u : State) : KeepsOrder u (markLoss k u) := by
    unfold markLoss
    split <;> exact {}
  unfold takeRecord
  split
  · unfold takeCheckError
    split
    · exact (order_raiseNotice ..).trans (marked ..)
    · exact order_raiseNotice ..
  · split
    · exact {}
    · unfold overrun
      split <;> exact {}
  · split <;> exact {}

theorem order_endSending (s : State) : KeepsOrder s (endSending s) := by
  unfold endSending
  split
  · exact {}
  all_goals split <;> exact {}

theorem order_writeServed (w : WriteBurst) (s : State) : KeepsOrder s (writeServed w s) := by
  refine (order_sc (kept_endWrite w)).trans ?_
  unfold writeServed
  extract_lets
  split
  · exact order_settle _
  · exact order_advance _

theorem order_readServed (r : ReadBurst) (s : State) : KeepsOrder s (readServed r s) := by
  have buffered (row : List Byte) (cli : Cli) : cli.InRange → (bufferRow r row cli).InRange := by
    unfold bufferRow
    split <;> exact id
  unfold readServed
  exact (KeepsOrder.trans { sc := kept_endRead r, cli := buffered _ _ } (order_pump _)).trans (order_storeOnly _)

theorem order_endWake (s : State) : KeepsOrder s (endWake s) := by
  have awake : KeepsOrder s (storeOnly { s with sc := { s.sc with mode := .active } }) :=
    KeepsOrder.trans {} (order_storeOnly _)
  refine awake.trans ?_
  unfold endWake
  extract_lets
  split
  · exact (KeepsOrder.trans {} (order_takeHeader ..)).trans (order_settle _)
  · exact {}

/-! ### Every command -/

/-- An event whose condition does not hold has no effect (log entry 1). -/
theorem order_event {p : Prop} [Decidable p] {u : State} (hu : KeepsOrder s u)
    (e : (if p then .next (finish u) else .next (fresh s) : Host.Outcome State Fault Refusal) = .next t) :
    KeepsOrder s t := by
  split at e <;> cases e
  · exact hu.trans (order_finish u)
  · exact {}

/-- Nor has a command when what it acts on does not stand there. -/
theorem order_actOn {α : Type} {c : Instr} {head : Option α} {op : α → State} (e : exec c s = .next t)
    (acts : exec c s = actOn head op s) (hop : ∀ a, KeepsOrder s (op a)) : KeepsOrder s t := by
  rw [acts] at e
  cases head with
  | none => cases e; exact {}
  | some a => cases e; exact (hop a).trans (order_finish _)

/-- R93, R177: POWER_ON leaves the store in order, whatever stood before. -/
theorem order_powerOn (cs : List Instr) (s : State) : KeepsOrder s { State.reset with pending := cs } := by
  obtain ⟨_, _, _, _, _, follow, _, _, _, _, _, numbers, _⟩ := invariantsAtReset
  obtain ⟨setup, cli⟩ := (numbersInRange_iff _).1 numbers
  exact { sc := { setup := fun _ => setup, slots := fun _ => (slotsFollowBanks_iff State.reset).1 follow }, cli := fun _ => cli }

/-- Every command keeps the store in order and the numbers in their ranges. -/
theorem exec_order {c : Instr} (e : exec c s = .next t) : KeepsOrder s t := by
  have begun {u : State} (h : KeepsOrder (fresh s) u) : KeepsOrder s u := KeepsOrder.trans {} h
  have head {u : State} (h : KeepsOrder (taken s) u) : KeepsOrder s u := KeepsOrder.trans {} h
  have settled {u : State} (h : KeepsOrder (fresh s) u) : KeepsOrder s (settle u) := (begun h).trans (order_settle u)
  cases c with
  | powerOn => cases e; exact order_powerOn ..
  | loadingEnd words => exact order_event (begun (order_handOver ..)) e
  | linkUp => exact order_event {} e
  | linkLoss =>
    have dropped : KeepsOrder s (dropLink (fresh s)) := KeepsOrder.trans {} (order_raiseNotice ..)
    exact order_event ((dropped.trans (order_intakeLinkLoss _)).trans (order_settle _)) e
  | recordReceived r => exact order_event (begun (order_takeRecord ..)) e
  | frameHeader =>
    simp only [exec, execFrameHeader] at e
    split at e
    · split at e <;> cases e
      · exact (begun (order_takeFrameHeader ..)).trans (order_finish _)
      · exact begun (order_finish _)
    · cases e; exact {}
  | line => exact order_actOn e (exec_line s) fun _ => head (order_takeLineRecord ..)
  | frameEnd => exact order_actOn e (exec_frameEnd s) fun _ => head (order_takeFrameEndRecord ..)
  | start => exact order_actOn e (exec_start s) fun _ => begun (order_takeTarget ..)
  | endTarget => exact order_actOn e (exec_endTarget s) fun _ => begun (order_takeTarget ..)
  | batchEnd => exact order_actOn e (exec_batchEnd s) fun _ => begun (order_takeTarget ..)
  | lossIndication => exact order_actOn e (exec_lossIndication s) fun _ => begun (order_takeLoss ..)
  | tableWrite => exact order_actOn e (exec_tableWrite s) fun _ => head (order_tableWriteOp ..)
  | tableFence => exact order_actOn e (exec_tableFence s) fun _ => {}
  | tableRead => exact order_actOn e (exec_tableRead s) fun _ => {}
  | tableDescribe => exact order_actOn e (exec_tableDescribe s) fun _ => {}
  | setRelease => exact order_actOn e (exec_setRelease s) fun _ => head (order_setReleaseOp ..)
  | setDiscard => exact order_actOn e (exec_setDiscard s) fun _ => head (order_setDiscardOp ..)
  | cardCancel => exact order_actOn e (exec_cardCancel s) fun _ => head (order_cardCancelOp ..)
  | storeSetup => exact order_actOn e (exec_storeSetup s) fun _ => head (order_storeSetupOp ..)
  | storeRetain => exact order_actOn e (exec_storeRetain s) fun _ => head (order_storeRetainOp ..)
  | storeWake => exact order_actOn e (exec_storeWake s) fun _ => head (order_storeWakeOp ..)
  | storePurge => exact order_actOn e (exec_storePurge s) fun _ => head (order_storePurgeOp ..)
  | storePurgeDone =>
    exact order_actOn e (exec_storePurgeDone s) fun tag =>
      (KeepsOrder.trans {} (order_purgeLast tag _)).trans (order_settle _)
  | monitorSetup => exact order_actOn e (exec_monitorSetup s) fun _ => head (order_monitorSetupOp ..)
  | recorderSetup => exact order_actOn e (exec_recorderSetup s) fun _ => head (order_recorderSetupOp ..)
  | statusRead => exact order_actOn e (exec_statusRead s) fun _ => {}
  | statusClear => exact order_actOn e (exec_statusClear s) fun _ => {}
  | linkReset => exact order_actOn e (exec_linkReset s) fun _ => head (order_linkResetOp ..)
  | linkResetComplete => exact order_actOn e (exec_linkResetComplete s) fun _ => {}
  | unknownKind => exact order_actOn e (exec_unknownKind s) fun _ => {}
  | writeBurstServed =>
    simp only [exec, execWriteBurstServed] at e
    split at e
    · split at e <;> cases e
      exact (begun (order_writeServed ..)).trans (order_finish _)
    · cases e; exact {}
  | readBurstServed =>
    simp only [exec, execReadBurstServed] at e
    split at e
    · split at e <;> cases e
      exact (begun (order_readServed ..)).trans (order_finish _)
    · cases e; exact {}
  | refreshDue => cases e; exact begun (order_sc kept_refreshDueStep)
  | refreshEnd => cases e; exact begun (order_sc kept_refreshEndStep)
  | wakeEnd => exact order_event (begun (order_endWake _)) e
  | responseTimerExpiry => exact order_actOn e (exec_responseTimerExpiry s) fun _ => settled (order_endAttempt ..)
  | recorderState ready => cases e; exact (settled (order_takeRecorderState ..)).trans (order_finish _)
  | cardAccepted echo => cases e; exact (settled (order_takeAccepted ..)).trans (order_finish _)
  | cardSpoiled echo reason => cases e; exact (settled (order_takeSpoiled ..)).trans (order_finish _)
  | recorderRestarted => cases e; exact (settled (order_takeRestarted _)).trans (order_finish _)
  | recorderMessageDropped r =>
    exact order_actOn e (exec_recorderMessageDropped s r) fun _ => settled (order_takeMessage ..)
  | returnSendEnd => exact order_event (begun (order_endSending _)) e

theorem step_order (e : step s = .next t) : KeepsOrder s t := by
  unfold step at e
  split at e
  · cases e; exact {}
  · rename_i c cs _
    exact KeepsOrder.trans (t := { s with pending := cs }) {} (exec_order e)

/-- Settles O6: every command keeps the slots following the banks (`exec_order`). -/
theorem stepKeepsSlotsFollowBanks : Obligations.StepKeepsSlotsFollowBanks := fun _ _ follow _ e =>
  (step_order e).slots follow

/-- Settles O9: every command keeps the numbers in their ranges (`exec_order`). -/
theorem stepKeepsNumbersInRange : Obligations.StepKeepsNumbersInRange := fun _ _ inRange e =>
  (step_order e).numbers inRange

end Sys2Proof.Machine
end

section
/-! SUPPORT. The slot that R94 chooses and the bursts that the arbiters of R100 grant. The statement O39. -/

namespace Sys2Proof.Machine

-- Checked one after another, as the tests are, to hold the memory and the threads down.
set_option Elab.async false

/-! ### The slots of a bank (R90) -/

section Bank
variable {sc : Sc} {b : Nat}

theorem bankSlots_length (sc : Sc) (b : Nat) : (bankSlots sc b).length ≤ Config.slotsPerBank := List.length_take_le ..

/-- R90: slot `i` of a bank is slot `128 b + i` of the store. -/
theorem bankSlots_getElem {i : Nat} (inside : i < (bankSlots sc b).length) :
    (bankSlots sc b)[i] = slotAt sc (Config.slotsPerBank * b + i) := by
  have held : Config.slotsPerBank * b + i < sc.slots.length := by
    simp only [bankSlots, List.length_take, List.length_drop] at inside
    omega
  simp only [bankSlots, List.getElem_take, List.getElem_drop, slotAt, getD_inside held]

theorem bankOf_offset {i : Nat} (h : i < Config.slotsPerBank) : bankOf (Config.slotsPerBank * b + i) = b := by
  simp only [bankOf, Config.slotsPerBank] at h ⊢
  omega

theorem isFree_iff (x : Slot) : x.isFree = true ↔ x = .free := by cases x <;> simp [Slot.isFree]

theorem mem_candidateBanks : b ∈ candidateBanks sc ↔ b < 4 ∧ b < sc.banks ∧ 0 < freeInBank sc b := by
  simp [candidateBanks, Config.bankCount]

/-- The first FREE slot of a bank that has one: it is in that bank, and no lower slot of the bank is FREE. -/
theorem firstFree (holds : 0 < freeInBank sc b) {n : Nat}
    (e : n = Config.slotsPerBank * b + (bankSlots sc b).findIdx Slot.isFree) :
    bankOf n = b ∧ slotAt sc n = .free ∧ ∀ i, bankOf i = b → i < n → slotAt sc i ≠ .free := by
  have inside : (bankSlots sc b).findIdx Slot.isFree < (bankSlots sc b).length :=
    List.findIdx_lt_length_of_exists (List.countP_pos_iff.1 holds)
  have bank : bankOf n = b := e ▸ bankOf_offset (Nat.lt_of_lt_of_le inside (bankSlots_length sc b))
  refine ⟨bank, ?_, fun i same below => ?_⟩
  · rw [e, ← bankSlots_getElem inside]
    exact (isFree_iff _).1 List.findIdx_getElem
  · have offset : i = Config.slotsPerBank * b + i % Config.slotsPerBank := by
      rw [← same, bankOf, Nat.div_add_mod]
    have before : i % Config.slotsPerBank < (bankSlots sc b).findIdx Slot.isFree := by omega
    have busy := List.not_of_lt_findIdx before
    rw [bankSlots_getElem (Nat.lt_trans before inside), ← offset] at busy
    exact mt (isFree_iff _).2 (by simpa using busy)

end Bank

/-! ### The bank (R94) -/

/-- R94 step 1: while another candidate than the bank of the card in flight stands, that bank is left out. -/
theorem excludeBank_apart {card : Option Nat} {cands : List Nat} {b : Nat} (stands : b ∈ cands) (apart : card ≠ some b) :
    b ∈ excludeBank card cands ∧ ∀ x, x ∈ excludeBank card cands → card ≠ some x := by
  cases card with
  | none => exact ⟨stands, nofun⟩
  | some k =>
    have rest : b ∈ cands.filter (fun x => x != k) :=
      List.mem_filter.2 ⟨stands, bne_iff_ne.2 fun same => apart (congrArg some same.symm)⟩
    have excluded : excludeBank (some k) cands = cands.filter (fun x => x != k) := if_neg (List.ne_nil_of_mem rest)
    rw [excluded]
    refine ⟨rest, fun x left same => ?_⟩
    cases same
    exact absurd rfl (bne_iff_ne.1 (List.mem_filter.1 left).2)

theorem excludeBank_rising {card : Option Nat} {cands : List Nat} (rising : cands.Pairwise (· < ·)) :
    (excludeBank card cands).Pairwise (· < ·) := by
  unfold excludeBank
  split
  · extract_lets
    split
    · exact rising
    · exact rising.filter _
  · exact rising

/-- R94 step 2: the bank chosen has the most FREE slots, and is the lowest-numbered of equals. -/
theorem bestBank_best {sc : Sc} {l : List Nat} {c : Nat} (rising : l.Pairwise (· < ·)) (best : bestBank sc l = some c)
    {b : Nat} (among : b ∈ l) :
    freeInBank sc b < freeInBank sc c ∨ (freeInBank sc b = freeInBank sc c ∧ c ≤ b) := by
  induction l generalizing b c with
  | nil => cases among
  | cons x xs ih =>
    obtain ⟨above, rising⟩ := List.pairwise_cons.1 rising
    unfold bestBank at best
    split at best
    · rename_i last
      cases best
      rw [bestBank_eq_none.1 last] at among
      have same : b = x := List.mem_singleton.1 among
      exact .inr ⟨congrArg (freeInBank sc) same, Nat.le_of_eq same.symm⟩
    · rename_i d found
      have higher : x < d := above d (mem_of_bestBank found)
      rcases List.mem_cons.1 among with rfl | among
      · split at best <;> cases best <;> omega
      · have beaten := ih rising found among
        have := above b among
        split at best <;> cases best <;> omega

/-- R94: how a slot was chosen. -/
theorem chooseSlot_some {sc : Sc} {card : Option Nat} {n : Nat} (h : chooseSlot sc card = some n) :
    ∃ b, bestBank sc (excludeBank (card.map bankOf) (candidateBanks sc)) = some b
      ∧ n = Config.slotsPerBank * b + (bankSlots sc b).findIdx Slot.isFree := by
  unfold chooseSlot at h
  split at h
  · cases h
  · rename_i b best
    exact ⟨b, best, (Option.some.inj h).symm⟩

/-! ### The arbiters (R100) -/

theorem grantBursts_both {sc : Sc} {w : WriteBurst} {r : ReadBurst} (write : sc.write = some w) (read : sc.read = some r) :
    grantBursts sc =
      if bankOf w.slot = bankOf r.slot then
        if w.active || r.active then sc
        else if sc.turns.getD (bankOf w.slot) .read = .read then
          grantRead { sc with turns := sc.turns.set (bankOf w.slot) .write }
        else grantWrite { sc with turns := sc.turns.set (bankOf w.slot) .read }
      else grantRead (grantWrite sc) := by
  unfold grantBursts
  simp only [write, read]
  cases sc.turns.getD (bankOf w.slot) .read <;> rfl

/-- Settles O39: the bank by `bestBank_best` among those that `excludeBank` leaves, its slot by `firstFree`, and the bursts by
`grantBursts_both`. -/
theorem storeGrants : Obligations.StoreGrants := by
  refine ⟨fun sc card => ⟨fun n chosen => ?slot, fun refused b inside enabled => ?none⟩,
    fun sc w r writeWaits readWaits _ => ⟨fun apart => ?apart, fun same turn => ?read, fun same turn => ?write, rfl, rfl⟩⟩
  case slot =>
    obtain ⟨b, best, e⟩ := chooseSlot_some chosen
    obtain ⟨_, enabled, holds⟩ := mem_candidateBanks.1 (mem_of_excludeBank (mem_of_bestBank best))
    obtain ⟨rfl, free, lowest⟩ := firstFree holds e
    refine ⟨chooseSlot_lt chosen, free, enabled, lowest, fun b inside enabled holds apart => ?_⟩
    obtain ⟨left, without⟩ := excludeBank_apart (mem_candidateBanks.2 ⟨inside, enabled, holds⟩) apart
    have rising : (candidateBanks sc).Pairwise (· < ·) := List.pairwise_lt_range.filter _
    exact ⟨without _ (mem_of_bestBank best), bestBank_best (excludeBank_rising rising) best left⟩
  case none =>
    refine Nat.eq_zero_of_not_pos fun holds => ?_
    have candidate := mem_candidateBanks.2 ⟨inside, enabled, holds⟩
    rw [chooseSlot_eq_none.1 refused] at candidate
    cases candidate
  case apart =>
    rw [grantBursts_both rfl rfl, if_neg apart]
    rfl
  case read =>
    rw [grantBursts_both rfl rfl, if_pos same, writeWaits, readWaits, if_neg (by decide), if_pos turn]
    rfl
  case write =>
    rw [grantBursts_both rfl rfl, if_pos same, writeWaits, readWaits, if_neg (by decide), if_neg (by rw [turn]; decide)]
    rfl

end Sys2Proof.Machine
end

section
/-! SUPPORT. The Store Controller's refreshes (R102 to R105, R108): one equation for each thing the SC can do next, for each
due moment and for each end of a refresh. The statement O40. -/

namespace Sys2Proof.Machine

-- Checked one after another, as the tests are, to hold the memory and the threads down.
set_option Elab.async false

section Refresh
variable {sc : Sc}

/-! ### What the SC's own going on leaves (R99 to R105) -/

/-- R100: a grant changes the two bursts and the turns. -/
theorem grantBursts_frame (sc : Sc) : grantBursts sc =
    { sc with turns := (grantBursts sc).turns, write := (grantBursts sc).write, read := (grantBursts sc).read } := by
  unfold grantBursts
  split
  · split
    · split
      · rfl
      · split <;> rfl
    · rfl
  all_goals rfl

theorem storeIdle_frame (sc : Sc) : storeIdle sc =
    { sc with
      turns := (storeIdle sc).turns, write := (storeIdle sc).write, read := (storeIdle sc).read
      refresh := (storeIdle sc).refresh, dues := (storeIdle sc).dues } := by
  unfold storeIdle
  split
  · split
    · rw [grantBursts_frame]
    · rfl
  · split
    · rfl
    · split <;> rfl

/-- The SC's own going on changes bursts, turns and refreshes, and nothing else of the store. -/
theorem storeSettle_frame (sc : Sc) : storeSettle sc =
    { sc with
      turns := (storeSettle sc).turns, write := (storeSettle sc).write, read := (storeSettle sc).read
      refresh := (storeSettle sc).refresh, forced := (storeSettle sc).forced, dues := (storeSettle sc).dues } := by
  unfold storeSettle
  split
  · rfl
  · split
    · split
      · rfl
      · split
        · rfl
        · split
          · rfl
          · rw [storeIdle_frame]
    · rw [storeIdle_frame]

/-! ### What the SC does next (R103 to R105) -/

theorem storeSettle_running (running : sc.refresh ≠ none) : storeSettle sc = sc :=
  if_pos (Option.isSome_iff_ne_none.2 running)

/-- R105: a forced refresh runs the deferred refreshes first, once no burst is active. -/
theorem storeSettle_deferred {owed : Nat} (ended : sc.refresh = none) (forced : sc.forced = some owed)
    (quiet : burstActive sc = false) (deferral : 0 < sc.deferral) :
    storeSettle sc = { sc with refresh := some .deferred } := by
  simp [storeSettle, ended, forced, quiet, deferral]

/-- R105: then the ones that it owes beyond the count. -/
theorem storeSettle_owed {owed : Nat} (ended : sc.refresh = none) (forced : sc.forced = some owed)
    (quiet : burstActive sc = false) (deferral : sc.deferral = 0) (more : owed ≠ 0) :
    storeSettle sc = { sc with refresh := some .owed } := by
  simp [storeSettle, ended, forced, quiet, deferral, Nat.pos_of_ne_zero more]

/-- While the count holds a refresh, a forced one changes no more than which refresh runs. -/
theorem storeSettle_pending {owed : Nat} (forced : sc.forced = some owed) (deferral : 0 < sc.deferral) :
    ∃ r, storeSettle sc = { sc with refresh := r } := by
  by_cases running : sc.refresh = none
  · cases quiet : burstActive sc
    · exact ⟨_, storeSettle_deferred running forced quiet deferral⟩
    · refine ⟨sc.refresh, ?_⟩
      simp only [storeSettle, running, forced, quiet, Option.isSome_none, Bool.false_eq_true, if_false, if_true]
      rw [← running, ← forced]
  · exact ⟨sc.refresh, storeSettle_running running⟩

theorem storeSettle_unforced (ended : sc.refresh = none) (unforced : sc.forced = none) :
    storeSettle sc = storeIdle sc := by
  simp [storeSettle, ended, unforced]

theorem storeIdle_bursts (present : burstPresent sc = true) (active : sc.mode = .active) :
    storeIdle sc = grantBursts sc := by
  simp [storeIdle, present, active]

/-- R104: a run of deferred refreshes goes on. -/
theorem storeIdle_deferred (absent : burstPresent sc = false) (awake : sc.mode ≠ .retaining) (deferral : 0 < sc.deferral) :
    storeIdle sc = { sc with refresh := some .deferred } := by
  simp [storeIdle, absent, awake, deferral]

/-- Log entry 24: then come the refreshes that fell due in RETAINING and have not run. -/
theorem storeIdle_dues (absent : burstPresent sc = false) (last : sc.mode = .retaining ∨ sc.deferral = 0) :
    storeIdle sc = if 0 < sc.dues then { sc with refresh := some .due, dues := sc.dues - 1 } else sc := by
  have noRun : ¬ (sc.mode ≠ .retaining ∧ 0 < sc.deferral) := by
    rintro ⟨awake, deferral⟩
    rcases last with retaining | zero
    · exact awake retaining
    · omega
  unfold storeIdle
  rw [absent, if_neg noRun]
  rfl

/-- R100: of bursts that wait, one at least is granted. -/
theorem grantBursts_grants (present : burstPresent sc = true) (quiet : burstActive sc = false) :
    burstActive (grantBursts sc) = true := by
  cases write : sc.write with
  | none =>
    cases read : sc.read with
    | none => simp [burstPresent, write, read] at present
    | some r => simp [grantBursts, write, read, grantRead, burstActive]
  | some w =>
    cases read : sc.read with
    | none => simp [grantBursts, write, read, grantWrite, burstActive]
    | some r =>
      simp only [burstActive, write, read] at quiet
      rw [grantBursts_both write read, quiet]
      simp only [Bool.false_eq_true, if_false]
      split
      · split <;> simp [grantRead, grantWrite, burstActive, write, read]
      · simp [grantRead, grantWrite, burstActive, write, read]

/-! ### Due moments (R102, R103, R108) -/

section Due
variable {i : Nat}

theorem refreshDueStep_retaining (timer : sc.timer = some i) (retaining : sc.mode = .retaining) :
    refreshDueStep sc = if sc.refresh.isSome then { sc with timer := some sc.interval, dues := sc.dues + 1 }
      else { sc with timer := some sc.interval, refresh := some .due } := by
  simp only [refreshDueStep, timer, retaining, if_true]

theorem refreshDueStep_awake (timer : sc.timer = some i) (awake : sc.mode ≠ .retaining) :
    refreshDueStep sc = dueMoment { sc with timer := some sc.interval } := by
  simp only [refreshDueStep, timer, awake, if_false]

theorem dueMoment_forced {owed : Nat} (forced : sc.forced = some owed) :
    dueMoment sc = { sc with forced := some (owed + 1) } := by
  simp only [dueMoment, forced]

theorem dueMoment_idle (unforced : sc.forced = none) (ended : sc.refresh = none) (absent : burstPresent sc = false) :
    dueMoment sc = { sc with refresh := some .due } := by
  unfold dueMoment
  rw [unforced, ended, absent]
  rfl

/-- R103: with a refresh or a burst under way, one that waits included, a due moment is deferred, or forces a refresh. -/
theorem dueMoment_busy (unforced : sc.forced = none) (busy : sc.refresh ≠ none ∨ burstPresent sc = true) :
    dueMoment sc = if sc.deferral < Config.deferralLimit then { sc with deferral := sc.deferral + 1 }
      else storeSettle { sc with forced := some 1 } := by
  have under : (sc.refresh.isSome || burstPresent sc) = true := by
    rwa [Bool.or_eq_true, Option.isSome_iff_ne_none]
  unfold dueMoment
  split
  · rename_i owed forced
    rw [unforced] at forced
    cases forced
  · exact if_pos under

/-- R103, R105: at 8 a forced refresh begins; it owes the due moment itself beyond the count. -/
theorem dueMoment_full (unforced : sc.forced = none) (busy : sc.refresh ≠ none ∨ burstPresent sc = true)
    (full : sc.deferral = 8) :
    (dueMoment sc).forced = some 1 ∧ (dueMoment sc).deferral = 8 ∧ (dueMoment sc).write = sc.write
      ∧ (dueMoment sc).read = sc.read := by
  obtain ⟨r, e⟩ := storeSettle_pending (sc := { sc with forced := some 1 }) rfl (full ▸ Nat.zero_lt_succ 7)
  rw [dueMoment_busy unforced busy, if_neg (full ▸ Nat.lt_irrefl 8), e]
  exact ⟨rfl, full, rfl, rfl⟩

theorem dueMoment_frame (sc : Sc) : dueMoment sc =
    { sc with
      turns := (dueMoment sc).turns, write := (dueMoment sc).write, read := (dueMoment sc).read
      deferral := (dueMoment sc).deferral, refresh := (dueMoment sc).refresh, forced := (dueMoment sc).forced
      dues := (dueMoment sc).dues } := by
  unfold dueMoment
  split
  · rfl
  · split
    · split
      · rfl
      · rw [storeSettle_frame]
    · rfl

/-- R102: a due moment restarts the timer; the slots, the mode and the DRAM stand. -/
theorem refreshDueStep_frame (timer : sc.timer = some i) :
    (refreshDueStep sc).timer = some sc.interval ∧ (refreshDueStep sc).slots = sc.slots
      ∧ (refreshDueStep sc).mode = sc.mode ∧ (refreshDueStep sc).dram = sc.dram := by
  by_cases retaining : sc.mode = .retaining
  · rw [refreshDueStep_retaining timer retaining]
    split <;> exact ⟨rfl, rfl, rfl, rfl⟩
  · rw [refreshDueStep_awake timer retaining, dueMoment_frame]
    exact ⟨rfl, rfl, rfl, rfl⟩

end Due

/-! ### The end of a refresh (R104, R105) -/

@[simp] theorem endRefresh_refresh (sc : Sc) : (endRefresh sc).refresh = none := by
  unfold endRefresh
  split
  · assumption
  all_goals rfl
@[simp] theorem endRefresh_write (sc : Sc) : (endRefresh sc).write = sc.write := by unfold endRefresh; split <;> rfl
@[simp] theorem endRefresh_read (sc : Sc) : (endRefresh sc).read = sc.read := by unfold endRefresh; split <;> rfl
@[simp] theorem endRefresh_slots (sc : Sc) : (endRefresh sc).slots = sc.slots := by unfold endRefresh; split <;> rfl
@[simp] theorem endRefresh_mode (sc : Sc) : (endRefresh sc).mode = sc.mode := by unfold endRefresh; split <;> rfl
@[simp] theorem endRefresh_dues (sc : Sc) : (endRefresh sc).dues = sc.dues := by unfold endRefresh; split <;> rfl
@[simp] theorem endRefresh_burstPresent (sc : Sc) : burstPresent (endRefresh sc) = burstPresent sc := by
  simp [burstPresent]
@[simp] theorem endRefresh_burstActive (sc : Sc) : burstActive (endRefresh sc) = burstActive sc := by
  simp [burstActive]

section End
variable {r : Refresh} (running : sc.refresh = some r)
include running

/-- R104: a deferred refresh takes 1 from the count. -/
theorem endRefresh_deferral :
    (endRefresh sc).deferral = if r = .deferred then sc.deferral - 1 else sc.deferral := by
  unfold endRefresh
  rw [running]
  cases r <;> rfl

/-- R105: one owed beyond the count takes 1 from what is owed. -/
theorem endRefresh_forced :
    (endRefresh sc).forced = sc.forced.map (fun owed => if r = .owed then owed - 1 else owed) := by
  unfold endRefresh
  rw [running]
  cases r <;> simp

theorem refreshEndStep_running : refreshEndStep sc = storeSettle (endRefresh sc) := by
  unfold refreshEndStep
  rw [running]
  rfl

theorem refreshEndStep_deferral : (refreshEndStep sc).deferral = (endRefresh sc).deferral := by
  rw [refreshEndStep_running running, storeSettle_frame]

/-- R104: with none forced the store goes on as an idle one. -/
theorem refreshEndStep_unforced (unforced : sc.forced = none) : refreshEndStep sc = storeIdle (endRefresh sc) := by
  rw [refreshEndStep_running running]
  exact storeSettle_unforced (endRefresh_refresh sc) (by rw [endRefresh_forced running, unforced]; rfl)

end End

end Refresh

/-- Settles O40: the due moment by the equations of `dueMoment`, the end of a refresh by what the SC does next after
`endRefresh`. -/
theorem refreshRules : Obligations.RefreshRules := by
  refine ⟨fun s i timer => ?due, fun s r running quiet => ?ended⟩
  case due =>
    obtain ⟨restarted, slots, mode, dram⟩ := refreshDueStep_frame timer
    have step (awake : s.sc.mode ≠ .retaining) := refreshDueStep_awake timer awake
    refine ⟨refreshDueStep s.sc, rfl, restarted, slots, mode, dram, fun retaining => ?retaining,
      fun retaining running => ?behind, fun awake unforced ended absent => ?idle,
      fun awake unforced busy below => ?deferred, fun awake unforced busy full => ?forcedNow,
      fun owed awake forced => (step awake).trans (dueMoment_forced forced)⟩
    case retaining =>
      rw [refreshDueStep_retaining timer retaining]
      split
      · exact ⟨rfl, fun ended => absurd ended (Option.isSome_iff_ne_none.1 ‹_›)⟩
      · exact ⟨rfl, fun _ => rfl⟩
    case behind => rw [refreshDueStep_retaining timer retaining, if_pos (Option.isSome_iff_ne_none.2 running)]
    case idle =>
      rw [(step awake).trans (dueMoment_idle unforced ended absent)]
      exact ⟨rfl, rfl⟩
    case deferred => exact ((step awake).trans (dueMoment_busy unforced busy)).trans (if_pos below)
    case forcedNow => rw [step awake]; exact dueMoment_full unforced busy full
  case ended =>
    have deferral := refreshEndStep_deferral running
    have fell := endRefresh_deferral running
    have forcedNow {owed : Nat} (forced : s.sc.forced = some owed) := by
      simpa only [forced] using endRefresh_forced running
    have noRefresh := endRefresh_refresh s.sc
    have noBurst := (endRefresh_burstActive s.sc).trans quiet
    have presence := endRefresh_burstPresent s.sc
    refine ⟨refreshEndStep s.sc, rfl, ?slots, refreshEndStep_dram s.sc, fun h => ?deferred, fun h => ?other,
      fun owed forced more => ?forcedRun, fun owed forced zero more => ?owed, fun unforced present active => ?bursts,
      fun unforced absent awake more => ?run, fun unforced absent last => ?dues⟩
    case slots => rw [refreshEndStep_running running, storeSettle_slots, endRefresh_slots]
    case deferred => rw [deferral, fell, if_pos h]
    case other => rw [deferral, fell, if_neg h]
    case forcedRun =>
      rw [refreshEndStep_running running, storeSettle_deferred noRefresh (forcedNow forced) noBurst (deferral ▸ more)]
      exact ⟨rfl, endRefresh_write _, endRefresh_read _⟩
    case owed =>
      rw [refreshEndStep_running running,
        storeSettle_owed noRefresh (forcedNow forced) noBurst (deferral.symm.trans zero) more]
      exact ⟨rfl, endRefresh_write _, endRefresh_read _⟩
    case bursts =>
      have present := presence.trans present
      rw [refreshEndStep_unforced running unforced, storeIdle_bursts present ((endRefresh_mode _).trans active)]
      exact ⟨by rw [grantBursts_frame]; exact noRefresh, grantBursts_grants present noBurst⟩
    case run =>
      rw [refreshEndStep_unforced running unforced,
        storeIdle_deferred (presence.trans absent) (mt (endRefresh_mode _).symm.trans awake) (deferral ▸ more)]
    case dues =>
      rw [deferral, ← endRefresh_mode s.sc] at last
      rw [refreshEndStep_unforced running unforced, storeIdle_dues (presence.trans absent) last, endRefresh_dues]
      refine ⟨fun held => ?_, fun zero => ?_⟩
      · rw [if_pos held]; exact ⟨rfl, rfl⟩
      · rw [if_neg (Nat.not_lt.2 (Nat.le_of_eq zero))]; exact ⟨noRefresh, (endRefresh_dues _).trans zero⟩

end Sys2Proof.Machine
end

section
/-! SUPPORT. STORE SETUP, STORE RETAIN and STORE WAKE as whole commands (R107 to R111). The statements O41, O42 and O43. -/

namespace Sys2Proof.Machine

-- Checked one after another, as the tests are, to hold the memory and the threads down.
set_option Elab.async false

/-! ### The store mode at a command's end (R109) -/

section Mode
variable {u t : State}

/-- A store that is not RETAINING keeps its mode at a command's end. -/
theorem EndOfCommand.modeAwake (h : EndOfCommand u t) (awake : u.sc.mode ≠ .retaining) : t.sc.mode = u.sc.mode := by
  rw [(h.rest (.inl awake)).1]

/-- R109: a RETAINING one stays so, and nothing but the return channel goes on, unless a header at the head wakes it. -/
theorem EndOfCommand.modeRetaining (h : EndOfCommand u t) (retaining : u.sc.mode = .retaining) :
    (headerWaits u = false → t.sc.mode = .retaining ∧ t = { u with fli := t.fli, returnOut := t.returnOut })
      ∧ (headerWaits u = true → t.sc.mode = .waking) := by
  have mode := h.mode retaining
  refine ⟨fun noHeader => ⟨?_, (h.rest (.inr noHeader)).1⟩, fun header => ?_⟩
  · rw [mode, noHeader]; rfl
  · rw [mode, header]; rfl

end Mode

/-! ### STORE SETUP (R111) -/

section Setup
variable {s : State} {tag : Byte} {interval banks : Nat}

theorem exec_storeSetup_taken (h : mgmtHead s = some (tag, .storeSetup interval banks)) :
    exec .storeSetup s = .next (finish (storeSetupOp tag interval banks (taken s))) := by
  rw [exec_storeSetup]; simp [headStoreSetup, h, actOn]

theorem storeSetupOp_refused {why : Reason} (refused : setupRefusal interval banks s = some why) :
    storeSetupOp tag interval banks s = placeReply tag 0x47 (.refused why) s := by
  unfold storeSetupOp
  rw [refused]

theorem storeSetupOp_stored (passed : setupRefusal interval banks s = none) :
    storeSetupOp tag interval banks s = settle (placeReply tag 0x47 (.ok (.store interval banks))
      { s with sc := { applyBanks banks s.sc with interval := interval } }) := by
  unfold storeSetupOp
  rw [passed]

theorem setupRanges_iff : (inRange 2 64 interval && inRange 1 4 banks) = true
    ↔ 2 ≤ interval ∧ interval ≤ 64 ∧ 1 ≤ banks ∧ banks ≤ 4 := by
  rw [Bool.and_eq_true, inRange_iff, inRange_iff, and_assoc]

theorem setupRefusal_outside (outside : ¬ (2 ≤ interval ∧ interval ≤ 64 ∧ 1 ≤ banks ∧ banks ≤ 4)) :
    setupRefusal interval banks s = some .badField := by
  rw [← setupRanges_iff, Bool.not_eq_true] at outside
  simp [setupRefusal, outside]

/-- R111: the checks after the ranges, in their order. -/
theorem setupRefusal_inside (inside : 2 ≤ interval ∧ interval ≤ 64 ∧ 1 ≤ banks ∧ banks ≤ 4) :
    setupRefusal interval banks s = if receivingNow s || s.cli.card.isSome then some .notNow
      else if droppedFree banks s.sc then none else some .notNow := by
  unfold setupRefusal
  rw [setupRanges_iff.2 inside]
  cases droppedFree banks s.sc <;> rfl

theorem cardPath_busy (busy : receivingNow s = true ∨ s.cli.card ≠ none) :
    (receivingNow s || s.cli.card.isSome) = true := by rwa [Bool.or_eq_true, Option.isSome_iff_ne_none]

theorem cardPath_quiet (noFrame : receivingNow s = false) (noCard : s.cli.card = none) :
    (receivingNow s || s.cli.card.isSome) = false := by rw [noFrame, noCard]; rfl

/-- R90, R111: a chip stands whatever banks are enabled. -/
theorem applyBanks_held {sc : Sc} {n : Nat} {state : ChipState} {chip : Chip} (inside : n < sc.slots.length)
    (held : slotAt sc n = .held state chip) : slotAt (applyBanks banks sc) n = .held state chip := by
  rw [applyBanks_slotAt banks sc n inside, held]

theorem applyBanks_slots_length {sc : Sc} : (applyBanks banks sc).slots.length = sc.slots.length := by
  simp [applyBanks]

/-- R111: any other slot is FREE or OFFLINE by its bank. -/
theorem applyBanks_empty {sc : Sc} {n : Nat} (inside : n < sc.slots.length)
    (empty : ((slotAt sc n).isFree || (slotAt sc n).isOffline) = true) :
    slotAt (applyBanks banks sc) n = if bankOf n < banks then .free else .offline := by
  rw [applyBanks_slotAt banks sc n inside]
  cases stands : slotAt sc n with
  | free | offline => rfl
  | held state chip => rw [stands] at empty; cases empty

end Setup

/-- Settles O41: the checks in order by `setupRefusal_inside`, and the slots by `applyBanks_held` and `applyBanks_empty`. -/
theorem storeSetupStores : Obligations.StoreSetupStores := by
  intro s tag interval banks head
  have completes := exec_storeSetup_taken head
  have refused {why : Reason} (h : setupRefusal interval banks (taken s) = some why) : ∃ t, exec .storeSetup s = .next t
      ∧ EndOfCommand (answeredBy tag 0x47 (.refused why) s) t := completes_command completes (storeSetupOp_refused h)
  refine ⟨fun outside => refused (setupRefusal_outside outside), fun inside => ?_⟩
  have checks := setupRefusal_inside (s := taken s) inside
  refine ⟨fun busy => refused (checks.trans (if_pos (cardPath_busy busy))), fun noFrame noCard => ?_⟩
  have quiet : setupRefusal interval banks (taken s) = if droppedFree banks s.sc then none else some .notNow :=
    checks.trans (if_neg (Bool.eq_false_iff.1 (cardPath_quiet noFrame noCard)))
  refine ⟨fun held => refused (by rw [quiet, held]; rfl), fun free => ?_⟩
  rw [storeSetupOp_stored (by rw [quiet, free]; rfl)] at completes
  refine ⟨_, _, completes, finish_settle_setsOff _, ?_, rfl, ?_, fun n state chip inside held => applyBanks_held inside held,
    fun n inside empty => applyBanks_empty inside empty, rfl, rfl, rfl, rfl, rfl, rfl⟩
  · exact congrArg (· ++ _) (takeHead_replies s.fli)
  · exact applyBanks_slots_length

/-! ### STORE RETAIN (R107) -/

section Retain
variable {s : State} {tag : Byte}

theorem exec_storeRetain_taken (h : mgmtHead s = some (tag, .storeRetain)) :
    exec .storeRetain s = .next (finish (storeRetainOp tag (taken s))) := by
  rw [exec_storeRetain]; simp [headStoreRetain, h, actOn]

theorem retainable_iff : retainable s = true ↔ s.rs.intake = .idle ∧ s.cli.card = none ∧ s.sc.refresh = none
    ∧ s.sc.forced = none ∧ s.sc.deferral = 0 ∧ s.sc.write = none ∧ s.sc.read = none := by
  simp [retainable, burstPresent, and_assoc]

theorem storeRetainOp_active (active : s.sc.mode = .active) : storeRetainOp tag s =
    if retainable s then placeReply tag 0x48 (.ok .none) { s with sc := { s.sc with mode := .retaining } }
    else placeReply tag 0x48 (.refused .notNow) s := by
  unfold storeRetainOp; rw [active]

theorem storeRetainOp_retaining (retaining : s.sc.mode = .retaining) :
    storeRetainOp tag s = placeReply tag 0x48 (.ok .none) s := by
  unfold storeRetainOp; rw [retaining]

theorem storeRetainOp_waking (waking : s.sc.mode = .waking) :
    storeRetainOp tag s = placeReply tag 0x48 (.refused .notNow) s := by
  unfold storeRetainOp; rw [waking]

end Retain

/-- Settles O42: the effect by the mode and by `retainable_iff`, the mode afterwards by what a command's end can do. -/
theorem storeRetainTable : Obligations.StoreRetainTable := by
  intro s tag head
  have completes := exec_storeRetain_taken head
  have refused {m : StoreMode} (mode : s.sc.mode = m) (awake : m ≠ .retaining)
      (e : storeRetainOp tag (taken s) = answeredBy tag 0x48 (.refused .notNow) s) : ∃ t, exec .storeRetain s = .next t
        ∧ EndOfCommand (answeredBy tag 0x48 (.refused .notNow) s) t ∧ t.sc.mode = m := by
    obtain ⟨t, run, ended⟩ := completes_command completes e
    exact ⟨t, run, ended, (ended.modeAwake (mt mode.symm.trans awake)).trans mode⟩
  have accepted {u : State} (retaining : u.sc.mode = .retaining) (e : storeRetainOp tag (taken s) = u) :
      ∃ t, exec .storeRetain s = .next t ∧ EndOfCommand u t
        ∧ (headerWaits u = false → t.sc.mode = .retaining ∧ t = { u with fli := t.fli, returnOut := t.returnOut })
        ∧ (headerWaits u = true → t.sc.mode = .waking) := by
    obtain ⟨t, run, ended⟩ := completes_command completes e
    exact ⟨t, run, ended, ended.modeRetaining retaining⟩
  refine ⟨?ok, ?busy, ?retaining, fun waking => refused waking nofun (storeRetainOp_waking waking)⟩
  case ok =>
    rintro active idle noCard noRefresh unforced settled noWrite noRead u rfl
    refine accepted rfl ((storeRetainOp_active (s := taken s) active).trans (if_pos ?_))
    exact retainable_iff.2 ⟨idle, noCard, noRefresh, unforced, settled, noWrite, noRead⟩
  case busy =>
    refine fun active busy => refused active nofun ((storeRetainOp_active (s := taken s) active).trans (if_neg fun free => ?_))
    obtain ⟨idle, noCard, noRefresh, unforced, settled, _⟩ := retainable_iff.1 free
    rcases busy with h | h | h | h | h
    · exact h idle
    · exact h noCard
    · exact h noRefresh
    · exact h unforced
    · exact Nat.ne_of_gt h settled
  case retaining =>
    rintro retaining u rfl
    exact accepted retaining (storeRetainOp_retaining retaining)

/-! ### STORE WAKE (R110) -/

section Wake
variable {s : State} {tag : Byte}

theorem exec_storeWake_taken (h : mgmtHead s = some (tag, .storeWake)) :
    exec .storeWake s = .next (finish (storeWakeOp tag (taken s))) := by
  rw [exec_storeWake]; simp [headStoreWake, h, actOn]

theorem storeWakeOp_retaining (retaining : s.sc.mode = .retaining) :
    storeWakeOp tag s = beginWake (placeReply tag 0x49 (.ok (.mode .waking)) s) := by
  unfold storeWakeOp; rw [retaining]

theorem storeWakeOp_waking (waking : s.sc.mode = .waking) :
    storeWakeOp tag s = placeReply tag 0x49 (.ok (.mode .waking)) s := by
  unfold storeWakeOp; rw [waking]

theorem storeWakeOp_active (active : s.sc.mode = .active) :
    storeWakeOp tag s = placeReply tag 0x49 (.ok (.mode .active)) s := by
  unfold storeWakeOp; rw [active]

theorem beginWake_mode : (beginWake s).sc.mode = .waking := settle_mode _

end Wake

/-- Settles O43: a RETAINING store begins its wake, which `settle` follows; in the other modes the reply is all. -/
theorem storeWakeTable : Obligations.StoreWakeTable := by
  intro s tag head
  have completes := exec_storeWake_taken head
  have stands {m : StoreMode} (mode : s.sc.mode = m) (awake : m ≠ .retaining)
      (e : storeWakeOp tag (taken s) = answeredBy tag 0x49 (.ok (.mode m)) s) : ∃ t, exec .storeWake s = .next t
        ∧ EndOfCommand (answeredBy tag 0x49 (.ok (.mode m)) s) t ∧ t.sc.mode = m := by
    obtain ⟨t, run, ended⟩ := completes_command completes e
    exact ⟨t, run, ended, (ended.modeAwake (mt mode.symm.trans awake)).trans mode⟩
  refine ⟨fun retaining => ?_, fun waking => stands waking nofun (storeWakeOp_waking (s := taken s) waking),
    fun active => stands active nofun (storeWakeOp_active (s := taken s) active)⟩
  rw [storeWakeOp_retaining (s := taken s) retaining] at completes
  have awake : (beginWake (answeredBy tag 0x49 (.ok (.mode .waking)) s)).sc.mode = .waking := beginWake_mode
  exact ⟨_, _, completes, finish_settle_setsOff _, rfl,
    ((finish_end _).modeAwake (mt awake.symm.trans nofun)).trans awake⟩

end Sys2Proof.Machine
end

section
/-! SUPPORT. STORE PURGE as a whole command, what it leaves for later, and its end (R80, R99, R112, R148). The statement O44. -/

namespace Sys2Proof.Machine

-- Checked one after another, as the tests are, to hold the memory and the threads down.
set_option Elab.async false

/-! ### The waiting frame (R80) -/

/-- The store with its mark that a frame may ask again (R96), set or not. -/
def askedAgain (again : Bool) (sc : Sc) : Sc := { sc with askAgain := again }

section Frame
variable {s : State} {f : FrameCtx}

/-- R78, R136: at most a reservation leaves the queue, and a frame may ask again. -/
theorem releaseReservation_frame (s : State) : ∃ again queue, releaseReservation s =
    { s with sc := askedAgain again s.sc, cs := { s.cs with queue := queue } } := by
  unfold releaseReservation
  split
  · exact ⟨_, _, rfl⟩
  · exact ⟨s.sc.askAgain, s.cs.queue, rfl⟩

theorem raiseNotice_purgeTag (x : Notice) (s : State) : (raiseNotice x s).mu.purgeTag = s.mu.purgeTag := by
  rcases raiseNotice_cases x s with ⟨_, e⟩ | ⟨_, e⟩ <;> rw [e]

/-- The FRAME_LOST of a frame that a purge aborts: reason PURGED, no set record number. -/
def purgedNotice (f : FrameCtx) : Notice := { frameNotice .frameLost f 3 with setNo := none }

/-- R80: a waiting frame, which has no slot, gives back at most its reservation and is reported. -/
theorem purgeFrame_waiting (waits : s.rs.intake = .waitSlot f ∨ s.rs.intake = .waitReservation f) (noSlot : f.slot = none) :
    ∃ again queue, purgeFrame s = emptyIntake (raiseNotice (purgedNotice f)
      { s with sc := askedAgain again s.sc, cs := { s.cs with queue := queue } }) := by
  obtain ⟨again, queue, released⟩ := releaseReservation_frame s
  refine ⟨again, queue, ?_⟩
  have aborted : purgeFrame s = abortWith f (purgedNotice f) s := by
    rcases waits with h | h <;> simp only [purgeFrame, h, purgedNotice]
  rw [aborted, ← released]
  simp only [abortWith, noSlot, dropSlot]

theorem purgeFrame_stands (stands : ∀ f, s.rs.intake ≠ .waitSlot f ∧ s.rs.intake ≠ .waitReservation f) : purgeFrame s = s := by
  unfold purgeFrame
  split
  · exact absurd ‹_› (stands _).1
  · exact absurd ‹_› (stands _).2
  all_goals rfl

end Frame

/-! ### The waiting BATCH END (R64, R127) -/

section Target
variable {p : State}

theorem againTarget_stands (stands : ∀ x, p.rs.intake ≠ .waitTarget x) : againTarget p = p := by
  unfold againTarget
  split
  · exact absurd ‹_› (stands _)
  all_goals rfl

/-- R127: on an emptied SAU and Card Queue, BATCH END places its marker at once. -/
theorem batchEndOp_blank (x : Target) (sau : p.sau = .blank) (cs : p.cs = .blank) :
    batchEndOp x p = { p with cs := { Cs.blank with queue := [.marker] }, rs := { p.rs with intake := .idle } } := by
  obtain ⟨pending, fli, mu, dm, rs, sc, sau', cs', cli, cardOut, returnOut, freeCount⟩ := p
  cases sau
  cases cs
  rfl

/-- R125: on an emptied SAU, END has no record to end. -/
theorem endTargetOp_blank (x : Target) (sau : p.sau = .blank) : endTargetOp x p = p := by
  obtain ⟨pending, fli, mu, dm, rs, sc, sau', cs', cli, cardOut, returnOut, freeCount⟩ := p
  cases sau
  rfl

/-- R126: on an emptied SAU, START opens the first record. -/
theorem startTargetOp_blank (x : Target) (sau : p.sau = .blank) : startTargetOp x p = openRecord 0 p := by
  obtain ⟨pending, fli, mu, dm, rs, sc, sau', cs', cli, cardOut, returnOut, freeCount⟩ := p
  cases sau
  rfl

theorem againTarget_waiting {x : Target} (waits : p.rs.intake = .waitTarget x) : againTarget p = targetOp x p := by
  unfold againTarget
  rw [waits]

theorem againTarget_batchEnd {x : Target} (waits : p.rs.intake = .waitTarget x) (kind : x.kind = .batchEnd)
    (sau : p.sau = .blank) (cs : p.cs = .blank) :
    againTarget p = { p with cs := { Cs.blank with queue := [.marker] }, rs := { p.rs with intake := .idle } } := by
  rw [againTarget_waiting waits, targetOp, kind]
  exact batchEndOp_blank x (p := { p with rs := { p.rs with intake := .idle } }) sau cs

/-- Whatever target waits, the host link, the MU and the Card Line stand, and the slots with them. -/
theorem againTarget_frame (sau : p.sau = .blank) (cs : p.cs = .blank) : ∃ again sau cs intake, againTarget p =
    { p with sc := askedAgain again p.sc, sau := sau, cs := cs, rs := { p.rs with intake := intake } } := by
  cases intake : p.rs.intake with
  | waitTarget x =>
    rw [againTarget_waiting intake]
    unfold targetOp
    cases x.kind with
    | start => exact ⟨_, _, _, _, startTargetOp_blank x (p := { p with rs := { p.rs with intake := .idle } }) sau⟩
    | endSet => exact ⟨p.sc.askAgain, _, _, _, endTargetOp_blank x (p := { p with rs := { p.rs with intake := .idle } }) sau⟩
    | batchEnd =>
      exact ⟨p.sc.askAgain, _, _, _, batchEndOp_blank x (p := { p with rs := { p.rs with intake := .idle } }) sau cs⟩
  | idle | receiving _ | discarding _ _ | waitSlot _ | waitReservation _ =>
    exact ⟨p.sc.askAgain, _, _, _, againTarget_stands (by rw [intake]; nofun)⟩

end Target

/-! ### The purge's first steps (R112 steps 1 to 3 and 5) -/

section Purged
variable {s v : State} {tag : Byte}

/-- What the steps before the setup and the reply make of the store, the replies owed, the Card Line and the MU. -/
structure Purged (s v : State) : Prop where
  store    : ∃ again, v.sc = askedAgain again (purgeSlots s.sc)
  cli      : v.cli = purgeRetry s.cs s.cli
  replies  : v.fli.replies = s.fli.replies
  purgeTag : v.mu.purgeTag = s.mu.purgeTag
  lost     : v.mu.sticky.storeLost = true

/-- What aborting the waiting frame leaves for those steps. -/
structure FramePurged (s v : State) : Prop where
  store    : ∃ again, v.sc = askedAgain again s.sc
  cli      : v.cli = s.cli
  retry    : v.cs.retry = s.cs.retry
  replies  : v.fli.replies = s.fli.replies
  purgeTag : v.mu.purgeTag = s.mu.purgeTag

theorem framePurged (slotOk : s.rs.intake.slotOk) : FramePurged s (purgeFrame s) := by
  by_cases waits : ∃ f, s.rs.intake = .waitSlot f ∨ s.rs.intake = .waitReservation f
  · obtain ⟨f, waits⟩ := waits
    have noSlot : f.slot = none := by rcases waits with h | h <;> rwa [h] at slotOk
    obtain ⟨again, queue, e⟩ := purgeFrame_waiting waits noSlot
    rw [e]
    exact ⟨⟨again, raiseNotice_sc ..⟩, raiseNotice_cli .., (congrArg Cs.retry (raiseNotice_cs ..)).trans rfl, raiseNotice_replies ..,
      raiseNotice_purgeTag ..⟩
  · rw [purgeFrame_stands (by simpa using waits)]
    exact ⟨⟨s.sc.askAgain, rfl⟩, rfl, rfl, rfl, rfl⟩

theorem purgeRetry_congr {a b : Cs} {cli : Cli} (h : a.retry = b.retry) : purgeRetry a cli = purgeRetry b cli := by
  unfold purgeRetry
  rw [h]

/-- R148: with a retry pending, its record goes and the tray sequence moves on. -/
theorem purgeRetry_eq (cs : Cs) (cli : Cli) : purgeRetry cs cli =
    { cli with
      failed := if cs.retry.isSome then none else cli.failed
      nextTray := if cs.retry.isSome then nextNumber cli.nextTray else cli.nextTray } := by
  unfold purgeRetry
  cases cs.retry <;> rfl

theorem purged (slotOk : s.rs.intake.slotOk) : Purged s (againTarget (purgeAll (purgeFrame s))) := by
  obtain ⟨⟨first, store⟩, cli, retry, replies, purgeTag⟩ := framePurged slotOk
  obtain ⟨again, sau, cs, intake, e⟩ := againTarget_frame (p := purgeAll (purgeFrame s)) rfl rfl
  rw [e]
  refine ⟨⟨again, ?_⟩, ?_, replies, purgeTag, rfl⟩
  · rw [purgeAll_sc, store]; rfl
  · rw [purgeAll_cli, cli]; exact purgeRetry_congr retry

/-! ### What becomes of the intake (R80, R127) -/

theorem purgeFrame_noTarget (noTarget : ∀ x, s.rs.intake ≠ .waitTarget x) :
    ∀ x, (purgeFrame s).rs.intake ≠ .waitTarget x := by
  unfold purgeFrame
  split
  iterate 2 exact fun _ => nofun
  all_goals exact noTarget

/-- Without a waiting target, the SAU and the Card Queue are empty and the intake is as the frame's end left it. -/
theorem purged_emptied (noTarget : ∀ x, s.rs.intake ≠ .waitTarget x) :
    againTarget (purgeAll (purgeFrame s)) = purgeAll (purgeFrame s) :=
  againTarget_stands (purgeFrame_noTarget noTarget)

theorem purged_batchEnd {x : Target} (waits : s.rs.intake = .waitTarget x) (kind : x.kind = .batchEnd) :
    againTarget (purgeAll (purgeFrame s)) = { purgeAll s with
      cs := { Cs.blank with queue := [.marker] }, rs := { s.rs with intake := .idle } } := by
  rw [purgeFrame_stands (by rw [waits]; exact fun _ => ⟨nofun, nofun⟩)]
  exact againTarget_batchEnd (p := purgeAll s) waits kind rfl rfl

/-- R80: the waiting frame is gone, and its FRAME_LOST joins the notices while there is room. -/
theorem purged_frame {f : FrameCtx} (waits : s.rs.intake = .waitSlot f ∨ s.rs.intake = .waitReservation f)
    (noSlot : f.slot = none) :
    (againTarget (purgeAll (purgeFrame s))).rs = { intake := .idle, work := .none, tone := none, geometry := none }
      ∧ (s.fli.notices.length < 32 →
        (againTarget (purgeAll (purgeFrame s))).fli.notices = s.fli.notices ++ [purgedNotice f]) := by
  obtain ⟨again, queue, e⟩ := purgeFrame_waiting waits noSlot
  rw [purged_emptied (by rcases waits with h | h <;> rw [h] <;> nofun), purgeAll_rs, purgeAll_fli, e]
  refine ⟨rfl, fun room => ?_⟩
  rcases raiseNotice_cases (purgedNotice f)
    { s with sc := askedAgain again s.sc, cs := { s.cs with queue := queue } } with ⟨_, joins⟩ | ⟨full, _⟩
  · rw [joins]; rfl
  · exact absurd room (Nat.not_lt.2 full)

/-! ### The slots (R99, R112 step 1) -/

section Slots
variable {sc : Sc} {n : Nat}

theorem purgeSlots_freed (inside : n < sc.slots.length) (notFilling : (slotAt sc n).inState .filling = false)
    (notRecording : (slotAt sc n).inState .recording = false)
    (freed : readLeftOn sc n = false ∨ (slotAt sc n).purgeable = false) :
    slotAt (purgeSlots sc) n = if bankOf n < sc.banks then .free else .offline := by
  rw [purgeSlots_slotAt sc n inside]
  cases stands : slotAt sc n with
  | free | offline => rfl
  | held state chip =>
    rw [stands] at notFilling notRecording freed
    cases state with
    | filling => cases notFilling
    | recording => cases notRecording
    | filed | queued =>
      rcases freed with free | h
      · rw [free]; rfl
      · cases h

theorem purgeSlots_left (inside : n < sc.slots.length) (purgeable : (slotAt sc n).purgeable = true)
    (left : readLeftOn sc n = true) : slotAt (purgeSlots sc) n = slotAt sc n := by
  rw [purgeSlots_slotAt sc n inside, purgeable, left]
  cases stands : slotAt sc n with
  | free | offline => rw [stands] at purgeable; cases purgeable
  | held state chip => rfl

theorem purgeSlots_read {r : ReadBurst} (read : sc.read = some r) (discard : r.discard = true)
    (purgeable : (slotAt sc r.slot).purgeable = true) : (purgeSlots sc).read = some { r with release := true } := by
  simp [purgeSlots, applyBanks, read, discard, purgeable]

/-- R99: while a burst is left of an ended card, the purge's end waits. -/
theorem purgeWaits_discard {r : ReadBurst} (read : sc.read = some r) (discard : r.discard = true) : purgeWaits sc = true := by
  simp [purgeWaits, read, discard]

theorem purgeWaits_askedAgain {again : Bool} : purgeWaits (askedAgain again sc) = purgeWaits sc := rfl

theorem purgeWaits_purgeSlots : purgeWaits (purgeSlots sc) = purgeWaits sc := by
  simp only [purgeWaits, purgeSlots, applyBanks]
  cases sc.read <;> rfl

/-- R112 step 4: an empty slot is FREE or OFFLINE by the configured banks. -/
theorem restoreSetup_freed (inside : n < sc.slots.length)
    (empty : ((slotAt sc n).isFree || (slotAt sc n).isOffline) = true) :
    slotAt (restoreSetup sc) n = if bankOf n < sc.cfgBanks then .free else .offline :=
  applyBanks_empty (sc := sc) inside empty

theorem restoreSetup_held {state : ChipState} {chip : Chip} (inside : n < sc.slots.length)
    (held : slotAt sc n = .held state chip) : slotAt (restoreSetup sc) n = .held state chip :=
  applyBanks_held (sc := sc) inside held

theorem purgeSlots_slots_length : (purgeSlots sc).slots.length = sc.slots.length := by
  simp [purgeSlots, applyBanks]

end Slots

/-! ### The purge's end (R112 steps 4 and 6) -/

/-- What stands in the store from a purge's beginning to the next state, whether its end waits or not. -/
structure StoreStands (a b : Sc) : Prop where
  mode     : b.mode = a.mode
  deferral : b.deferral = a.deferral
  turns    : b.turns = a.turns
  write    : b.write = a.write
  dram     : b.dram = a.dram

theorem purgeEnd_waiting (waits : purgeWaits v.sc = true) :
    purgeEnd tag v = { v with mu := { v.mu with purgeTag := some tag } } := if_pos waits

theorem purgeEnd_now (done : purgeWaits v.sc = false) : purgeEnd tag v = purgeLast tag v := if_neg (Bool.eq_false_iff.1 done)

theorem purgeEnd_sau : (purgeEnd tag v).sau = v.sau := by unfold purgeEnd; split <;> rfl
theorem purgeEnd_cs : (purgeEnd tag v).cs = v.cs := by unfold purgeEnd; split <;> rfl
theorem purgeEnd_rs : (purgeEnd tag v).rs = v.rs := by unfold purgeEnd; split <;> rfl
theorem purgeEnd_cli : (purgeEnd tag v).cli = v.cli := by unfold purgeEnd; split <;> rfl
theorem purgeEnd_notices : (purgeEnd tag v).fli.notices = v.fli.notices := by unfold purgeEnd; split <;> rfl
theorem purgeEnd_sticky : (purgeEnd tag v).mu.sticky = v.mu.sticky := by unfold purgeEnd; split <;> rfl

theorem Purged.waits (h : Purged s v) : purgeWaits v.sc = purgeWaits s.sc := by
  obtain ⟨again, store⟩ := h.store
  rw [store, purgeWaits_askedAgain, purgeWaits_purgeSlots]

theorem Purged.stands (h : Purged s v) : StoreStands s.sc (purgeEnd tag v).sc := by
  obtain ⟨again, store⟩ := h.store
  cases waits : purgeWaits v.sc
  · rw [purgeEnd_now waits, purgeLast_sc, store]; exact ⟨rfl, rfl, rfl, rfl, rfl⟩
  · rw [purgeEnd_waiting waits]
    exact store ▸ ⟨rfl, rfl, rfl, rfl, rfl⟩

/-- With nothing to wait for, the purge ends at once. -/
theorem Purged.ended (h : Purged s v) (done : purgeWaits s.sc = false) (noPurge : s.mu.purgeTag = none) :
    (purgeEnd tag v).sc.interval = s.sc.cfgInterval ∧ (purgeEnd tag v).sc.banks = s.sc.cfgBanks
      ∧ (purgeEnd tag v).mu.purgeTag = none
      ∧ (purgeEnd tag v).fli.replies = s.fli.replies ++ [{ tag := tag, code := 0x4A, result := .ok .none }] := by
  obtain ⟨again, store⟩ := h.store
  rw [purgeEnd_now (h.waits.trans done), purgeLast_sc, store, purgeLast_mu, h.purgeTag, purgeLast_fli, h.replies]
  exact ⟨rfl, rfl, noPurge, rfl⟩

/-- Otherwise its end is owed. -/
theorem Purged.owed (h : Purged s v) (waits : purgeWaits s.sc = true) :
    (purgeEnd tag v).sc.interval = s.sc.interval ∧ (purgeEnd tag v).sc.banks = s.sc.banks
      ∧ (purgeEnd tag v).mu.purgeTag = some tag ∧ (purgeEnd tag v).fli.replies = s.fli.replies := by
  obtain ⟨again, store⟩ := h.store
  rw [purgeEnd_waiting (h.waits.trans waits), ← h.replies]
  exact ⟨store ▸ rfl, store ▸ rfl, rfl, rfl⟩

theorem emptySlot_empty (n banks : Nat) : ((if bankOf n < banks then Slot.free else .offline).isFree
    || (if bankOf n < banks then Slot.free else .offline).isOffline) = true := by
  split <;> rfl

/-- R112 step 1: a slot whose chip no burst works on is FREE, or OFFLINE, by the banks that are enabled in the end. -/
theorem Purged.freed {n : Nat} (h : Purged s v) (inside : n < s.sc.slots.length)
    (notFilling : (slotAt s.sc n).inState .filling = false) (notRecording : (slotAt s.sc n).inState .recording = false)
    (freed : readLeftOn s.sc n = false ∨ (slotAt s.sc n).purgeable = false) :
    slotAt (purgeEnd tag v).sc n = if bankOf n < (purgeEnd tag v).sc.banks then .free else .offline := by
  obtain ⟨again, store⟩ := h.store
  have first := purgeSlots_freed inside notFilling notRecording freed
  cases waits : purgeWaits v.sc
  · rw [purgeEnd_now waits, purgeLast_sc, store]
    refine restoreSetup_freed (sc := askedAgain again (purgeSlots s.sc)) ?_ ?_
    · exact purgeSlots_slots_length.symm ▸ inside
    · exact first.symm ▸ emptySlot_empty n s.sc.banks
  · rw [purgeEnd_waiting waits]
    exact store ▸ first

/-- R99: the slot of a left read burst is freed when that burst has ended. -/
theorem Purged.left {r : ReadBurst} (h : Purged s v) (inside : r.slot < s.sc.slots.length) (read : s.sc.read = some r)
    (discard : r.discard = true) (purgeable : (slotAt s.sc r.slot).purgeable = true) :
    slotAt (purgeEnd tag v).sc r.slot = slotAt s.sc r.slot ∧ (purgeEnd tag v).sc.read = some { r with release := true } := by
  obtain ⟨again, store⟩ := h.store
  have left : readLeftOn s.sc r.slot = true := by simp [readLeftOn, read, discard]
  rw [purgeEnd_waiting (h.waits.trans (purgeWaits_discard read discard))]
  exact store ▸ ⟨purgeSlots_left inside purgeable left, purgeSlots_read read discard purgeable⟩

end Purged

/-! ### STORE_PURGE, READ_BURST_SERVED and STORE_PURGE_DONE (R99, R112) -/

section Commands
variable {s : State} {tag : Byte}

theorem exec_storePurge_taken (h : mgmtHead s = some (tag, .storePurge)) :
    exec .storePurge s = .next (finish (storePurgeOp tag (taken s))) := by
  rw [exec_storePurge]; simp [headStorePurge, h, actOn]

theorem storePurgeOp_refused (busy : receivingNow s = true ∨ s.cli.card ≠ none) :
    storePurgeOp tag s = placeReply tag 0x4A (.refused .notNow) s := if_pos (cardPath_busy busy)

theorem storePurgeOp_purges (noFrame : receivingNow s = false) (noCard : s.cli.card = none) :
    storePurgeOp tag s = settle (purgeEnd tag (againTarget (purgeAll (purgeFrame s)))) :=
  if_neg (Bool.eq_false_iff.1 (cardPath_quiet noFrame noCard))

/-- R170: no management record is taken while a purge's reply is owed. -/
theorem mgmtHead_noPurge {x : Byte × MgmtBody} (h : mgmtHead s = some x) : s.mu.purgeTag = none := by
  have ready := mgmtHead_ready (mt h.symm.trans nofun)
  simp only [mgmtReady, Bool.and_eq_true, Option.isNone_iff_eq_none] at ready
  exact ready.2

/-- R99: a discarded burst ends with no card, and the slot a purge marked is freed. -/
theorem readServed_discarded {r : ReadBurst} (discard : r.discard = true) (release : r.release = true)
    (noCard : s.cli.card = none) :
    readServed r s = { s with sc := storeSettle (freeSlot r.slot { s.sc with read := none }) } := by
  simp [readServed, storeOnly, pump, endRead, bufferRow, discard, release, noCard]

/-! The SC begins no read burst of its own. -/

theorem grantBursts_read_isNone (sc : Sc) : (grantBursts sc).read.isNone = sc.read.isNone := by
  unfold grantBursts
  repeat' split
  all_goals simp_all [grantWrite, grantRead]

theorem storeIdle_read_isNone (sc : Sc) : (storeIdle sc).read.isNone = sc.read.isNone := by
  unfold storeIdle
  repeat' split
  all_goals simp [grantBursts_read_isNone]

theorem storeSettle_read_isNone (sc : Sc) : (storeSettle sc).read.isNone = sc.read.isNone := by
  unfold storeSettle
  repeat' split
  all_goals simp [storeIdle_read_isNone]

theorem storeSettle_slotAt (sc : Sc) {n : Nat} : slotAt (storeSettle sc) n = slotAt sc n := by
  rw [slotAt, storeSettle_slots, slotAt]

theorem exec_readBurstServed_served {r : ReadBurst} (active : activeRead s = some r) (fits : readFits r.slot r.row = true) :
    exec .readBurstServed s = .next (finish (readServed r (fresh s))) := by
  simp [exec, execReadBurstServed, active, fits]

theorem purgeEnding_waits (waits : purgeWaits s.sc = true) : purgeEnding s = none := if_pos waits

theorem purgeEnding_done (done : purgeWaits s.sc = false) : purgeEnding s = s.mu.purgeTag :=
  if_neg (Bool.eq_false_iff.1 done)

end Commands

/-- Settles O44: the purge's own steps by `Purged`, its end by `purgeEnd` now or when nothing is left to wait for. -/
theorem storePurgeClears : Obligations.StorePurgeClears := by
  refine ⟨fun s tag head => ⟨fun busy => ?refused, fun noFrame noCard slotOk => ?purges⟩,
    fun s r active fits discard release noCard inside => ?served, fun s tag owed => ⟨fun waits => ?early, fun done => ?last⟩⟩
  case refused =>
    exact completes_command (exec_storePurge_taken head) (storePurgeOp_refused (s := taken s) busy)
  case purges =>
    have made : Purged (taken s) _ := purged slotOk
    have stands := made.stands (tag := tag)
    have completes := exec_storePurge_taken head
    rw [storePurgeOp_purges (s := taken s) noFrame noCard] at completes
    refine ⟨_, _, completes, finish_settle_setsOff _, ?lost, stands.mode, stands.deferral, stands.turns, stands.write,
      stands.dram, fun noTarget => ?emptied, fun x waits kind => ?batchEnd, fun done => ?now, fun waits => ?owed,
      fun n inside notFilling notRecording => ⟨made.freed inside notFilling notRecording, ?left⟩, ?cli, fun f waits => ?frame⟩
    case lost => rw [purgeEnd_sticky]; exact made.lost
    case emptied =>
      rw [purgeEnd_sau, purgeEnd_cs, purged_emptied (s := taken s) noTarget]
      exact ⟨rfl, rfl⟩
    case batchEnd =>
      rw [purgeEnd_sau, purgeEnd_cs, purgeEnd_rs, purged_batchEnd (s := taken s) waits kind]
      exact ⟨rfl, rfl, rfl⟩
    case now =>
      obtain ⟨interval, banks, noTag, replies⟩ := made.ended (tag := tag) done (mgmtHead_noPurge (s := s) head)
      exact ⟨interval, banks, noTag, replies.trans (congrArg (· ++ _) (takeHead_replies s.fli))⟩
    case owed =>
      obtain ⟨interval, banks, owes, replies⟩ := made.owed (tag := tag) waits
      exact ⟨interval, banks, owes, replies.trans (takeHead_replies s.fli)⟩
    case left =>
      rintro r read rfl discard purgeable
      exact made.left inside read discard purgeable
    case cli => rw [purgeEnd_cli, made.cli]; exact purgeRetry_eq s.cs s.cli
    case frame =>
      have noSlot : f.slot = none := by rcases waits with h | h <;> rwa [h] at slotOk
      obtain ⟨emptied, notices⟩ := purged_frame (s := taken s) waits noSlot
      rw [purgeEnd_rs, purgeEnd_notices]
      have before : (taken s).fli.notices = s.fli.notices := takeHead_notices s.fli
      rw [before] at notices
      exact ⟨emptied, fun room => ⟨purgedNotice f, notices room, rfl, rfl, rfl, rfl, rfl, rfl, rfl⟩⟩
  case served =>
    have completes := exec_readBurstServed_served active fits
    rw [readServed_discarded (s := fresh s) discard release noCard] at completes
    refine ⟨_, _, completes, finish_end _, rfl, rfl, ?_, ?_, fun n other => ?_⟩
    · rw [← Option.isNone_iff_eq_none, storeSettle_read_isNone]; rfl
    · exact (storeSettle_slotAt _).trans (slotAt_setSlot_same _ inside)
    · exact (storeSettle_slotAt _).trans (slotAt_setSlot_other _ (Ne.symm other))
  case early =>
    rw [exec_storePurgeDone, purgeEnding_waits waits]; rfl
  case last =>
    have completes : exec .storePurgeDone s = .next (finish (purgeDoneOp tag (fresh s))) := by
      rw [exec_storePurgeDone, purgeEnding_done done, owed]; rfl
    refine ⟨_, _, completes, finish_settle_setsOff _, rfl, fun n inside => ⟨fun empty => ?_, fun state chip held => ?_⟩⟩
    · exact restoreSetup_freed (sc := askedAgain true s.sc) inside (Bool.or_eq_true_iff.2 empty)
    · exact restoreSetup_held (sc := askedAgain true s.sc) inside held

end Sys2Proof.Machine
end

section
/-! SUPPORT. The end of an attempt: what becomes of the card's slot, of the CLI, of the queue and of the notices (R141, R142,
R145, R157, R159, R162, R163). The statements O50, O51 and O53. -/

namespace Sys2Proof.Machine

-- Checked one after another, as the tests are, to hold the memory and the threads down.
set_option Elab.async false

/-! ### Jobs in the queue (R137, R141, R142) -/

section Queue
variable {id : Nat} {j : Job}

theorem findJob_id {q : List Entry} (found : findJob id q = some j) : j.id = id := by
  induction q with
  | nil => cases found
  | cons e es ih =>
    cases e with
    | job k =>
      unfold findJob at found
      split at found
      · cases found; assumption
      · exact ih found
    | marker => exact ih found
    | reservation => exact ih found

/-- A change that leaves the names of jobs alone is found under the same name. -/
theorem findJob_changeJob {change : Job → Job} (named : ∀ k, (change k).id = k.id) {q : List Entry}
    (found : findJob id q = some j) : findJob id (changeJob id change q) = some (change j) := by
  induction q with
  | nil => cases found
  | cons e es ih =>
    cases e with
    | job k =>
      by_cases same : k.id = id
      · simp_all [findJob, changeJob]
      · simp_all [findJob, changeJob]
    | marker => exact ih found
    | reservation => exact ih found

theorem stepProgress_id (k : Job) : (stepProgress k).id = k.id := by unfold stepProgress; split <;> rfl

theorem stepProgress_position (last : j.copies ≤ j.nextCopy) :
    stepProgress j = { j with nextPos := j.nextPos + 1, nextCopy := 1 } := if_pos last

theorem stepProgress_copy (more : j.nextCopy < j.copies) : stepProgress j = { j with nextCopy := j.nextCopy + 1 } :=
  if_neg (Nat.not_le.2 more)

end Queue

section JobDone
variable {s : State} {id : Nat} {j : Job}

theorem jobDone_ends (found : findJob id s.cs.queue = some j) (last : j.cards.length ≤ (stepProgress j).nextPos) :
    jobDone id s = endJob id s := by
  unfold jobDone
  rw [found]
  exact if_pos last

theorem jobDone_goesOn (found : findJob id s.cs.queue = some j) (more : (stepProgress j).nextPos < j.cards.length) :
    jobDone id s = { s with cs := { s.cs with queue := changeJob id stepProgress s.cs.queue } } := by
  unfold jobDone
  rw [found]
  exact if_neg (Nat.not_le.2 more)

theorem jobDone_found (found : findJob id s.cs.queue = some j) (more : (stepProgress j).nextPos < j.cards.length) :
    findJob id (jobDone id s).cs.queue = some (stepProgress j) := by
  rw [jobDone_goesOn found more]
  exact findJob_changeJob stepProgress_id found

/-- R141: the copy of a card is the last one of its position. -/
theorem lastCopy_eq (found : findJob id s.cs.queue = some j) (copy : Nat) :
    lastCopy s id copy = decide (j.copies ≤ copy) := by
  unfold lastCopy
  rw [found]

end JobDone

/-! ### What the end of an attempt can change (R141, R159) -/

/-- The part once the card that ended last is noted (R144). -/
def lastNoted (c : Card) (s : State) : State := { s with cs := { s.cs with last := c.kind.asLast } }

/-- What reporting an outcome to the CS leaves as it is. -/
structure ReportLeaves (s t : State) : Prop where
  fli     : t.fli = s.fli := by rfl
  rs      : t.rs = s.rs := by rfl
  sau     : t.sau = s.sau := by rfl
  cli     : t.cli = s.cli := by rfl
  cardOut : t.cardOut = s.cardOut := by rfl
  slots   : t.sc.slots = s.sc.slots := by rfl
  read    : t.sc.read = s.sc.read := by rfl

/-- R159: what the end of an attempt makes of the part: the slot by its verdict, the CLI cleared, a read burst discarded, a
rejection told, and the outcome reported to the CS. -/
structure AttemptEnded (c : Card) (v : Verdict) (s u : State) : Prop where
  fli     : u.fli = (noticeRejected c v s).fli
  rs      : u.rs = s.rs
  sau     : u.sau = s.sau
  cs      : u.cs = (report c v s).cs
  cli     : u.cli = (clearCard c v s).cli
  cardOut : u.cardOut = s.cardOut
  slots   : u.sc.slots = (endSlot c.kind v s).sc.slots
  read    : u.sc.read = s.sc.read.map (fun r => { r with discard := true })

section Attempt
variable (c : Card) (v : Verdict) (s : State)

theorem copyDone_leaves (k : CardKind) : ReportLeaves s (copyDone k s) := by
  cases k with
  | chip job position copy slot =>
    show ReportLeaves s (jobDone job s)
    unfold jobDone
    split
    · exact {}
    · extract_lets
      split <;> exact {}
  | separatorOpen | separatorClose =>
    show ReportLeaves s (separatorDone s)
    unfold separatorDone
    split
    · exact {}
    · split <;> exact {}

theorem report_leaves : ReportLeaves s (report c v s) := by
  cases v with
  | retry cause => exact {}
  | completed | rejected cause =>
    obtain ⟨fli, rs, sau, cli, cardOut, slots, read⟩ := copyDone_leaves (lastNoted c s) c.kind
    exact ⟨fli, rs, sau, cli, cardOut, slots, read⟩

/-- R141: what the CS makes of an outcome goes by the CS alone. -/
theorem copyDone_cs_congr {s t : State} (same : s.cs = t.cs) (k : CardKind) : (copyDone k s).cs = (copyDone k t).cs := by
  cases k with
  | chip job position copy slot =>
    show (jobDone job s).cs = (jobDone job t).cs
    unfold jobDone
    rw [same]
    split
    · exact same
    · extract_lets
      split
      · simp [endJob, same]
      · rfl
  | separatorOpen | separatorClose =>
    show (separatorDone s).cs = (separatorDone t).cs
    unfold separatorDone
    rw [same]
    split
    · exact same
    · split
      · rfl
      · exact same
      · rfl

theorem report_cs_congr {s t : State} (same : s.cs = t.cs) : (report c v s).cs = (report c v t).cs := by
  cases v with
  | retry cause => simp only [report, same]
  | completed | rejected cause => exact copyDone_cs_congr (by simp only [same]) c.kind

theorem raiseNotice_fli_congr {s t : State} (same : s.fli = t.fli) (n : Notice) :
    (raiseNotice n s).fli = (raiseNotice n t).fli := by
  unfold raiseNotice
  rw [same]
  split <;> rfl

theorem cardNotice_congr {s t : State} (same : s.cs = t.cs) (kind : NoticeKind) (k : CardKind) (detail : Nat) :
    cardNotice s kind k detail = cardNotice t kind k detail := by
  unfold cardNotice cardKey cardPosition
  rw [same]

theorem endSlot_frame (k : CardKind) : ∃ slots, endSlot k v s = { s with sc := { s.sc with slots := slots } } := by
  cases k with
  | chip job position copy slot =>
    unfold endSlot
    simp only
    split
    · unfold releaseSlot
      split
      · exact ⟨_, rfl⟩
      · exact ⟨s.sc.slots, rfl⟩
    · obtain ⟨slots, moved⟩ := moveSlot_frame slot .recording .queued (fun c => c) s.sc
      exact ⟨slots, by rw [moved]⟩
  | separatorOpen | separatorClose => exact ⟨s.sc.slots, rfl⟩

theorem noticeRejected_fli_congr {s t : State} (fli : s.fli = t.fli) (cs : s.cs = t.cs) :
    (noticeRejected c v s).fli = (noticeRejected c v t).fli := by
  cases v with
  | completed | retry cause => exact fli
  | rejected cause =>
    unfold noticeRejected
    simp only [cardNotice_congr cs]
    exact raiseNotice_fli_congr fli _

/-- R159 step 5: a rejection told changes the FLI and the MU alone. -/
theorem noticeRejected_leaves : (noticeRejected c v s).rs = s.rs ∧ (noticeRejected c v s).sau = s.sau
    ∧ (noticeRejected c v s).sc = s.sc ∧ (noticeRejected c v s).cs = s.cs ∧ (noticeRejected c v s).cli = s.cli
    ∧ (noticeRejected c v s).cardOut = s.cardOut := by
  cases v with
  | completed | retry cause => exact ⟨rfl, rfl, rfl, rfl, rfl, rfl⟩
  | rejected cause => simp [noticeRejected]

theorem attemptEnded : AttemptEnded c v s (endAttempt c v s) := by
  obtain ⟨slots, ended⟩ := endSlot_frame v s c.kind
  obtain ⟨rs, sau, sc, cs, cli, cardOut⟩ := noticeRejected_leaves c v (clearCard c v (endSlot c.kind v s))
  have reported := report_leaves c v (noticeRejected c v (clearCard c v (endSlot c.kind v s)))
  rw [ended] at rs sau sc cs cli cardOut
  constructor
  case fli => exact reported.fli.trans (noticeRejected_fli_congr c v (by rw [ended]; rfl) (by rw [ended]; rfl))
  case cs => exact report_cs_congr c v (by rw [ended]; exact cs)
  case rs => exact reported.rs.trans (by rw [ended]; exact rs)
  case sau => exact reported.sau.trans (by rw [ended]; exact sau)
  case cli => exact reported.cli.trans (by rw [ended]; exact cli)
  case cardOut => exact reported.cardOut.trans (by rw [ended]; exact cardOut)
  case slots => rw [ended]; exact reported.slots.trans (by rw [ended, sc]; rfl)
  case read => exact reported.read.trans (by rw [ended, sc]; rfl)

theorem report_done (done : v.done = true) : report c v s = copyDone c.kind (lastNoted c s) := by
  cases v with
  | completed | rejected cause => rfl
  | retry cause => cases done

theorem copyDone_retry (k : CardKind) : (copyDone k s).cs.retry = s.cs.retry := by
  cases k with
  | chip job position copy slot =>
    show (jobDone job s).cs.retry = s.cs.retry
    unfold jobDone
    split
    · rfl
    · extract_lets
      split <;> rfl
  | separatorOpen | separatorClose =>
    show (separatorDone s).cs.retry = s.cs.retry
    unfold separatorDone
    split
    · rfl
    · split <;> rfl

variable {c v s} in
/-- R141: an outcome that ends the copy leaves a pending retry as it is. -/
theorem AttemptEnded.retry {u : State} (h : AttemptEnded c v s u) (done : v.done = true) : u.cs.retry = s.cs.retry := by
  rw [h.cs, report_done c v s done]
  exact copyDone_retry (lastNoted c s) c.kind

end Attempt

/-! ### The slot of a chip card (R92, R98, R159 step 2) -/

theorem slotAt_of_slots {a b : Sc} (same : a.slots = b.slots) (n : Nat) : slotAt a n = slotAt b n := by
  rw [slotAt, same, slotAt]

section Slot
variable {s : State} {v : Verdict} {job position copy slot : Nat} {chip : Chip}

theorem endSlot_frees (recording : slotAt s.sc slot = .held .recording chip) (inside : slot < s.sc.slots.length)
    (enabled : bankOf slot < s.sc.banks) (last : (v.done && lastCopy s job copy) = true) :
    slotAt (endSlot (.chip job position copy slot) v s).sc slot = .free := by
  have released : endSlot (.chip job position copy slot) v s = { s with sc := freeSlot slot s.sc } := by
    simp [endSlot, last, releaseSlot, recording, Slot.inState]
  rw [released]
  exact slotAt_freeSlot inside enabled

theorem endSlot_queues (recording : slotAt s.sc slot = .held .recording chip) (inside : slot < s.sc.slots.length)
    (more : (v.done && lastCopy s job copy) = false) :
    slotAt (endSlot (.chip job position copy slot) v s).sc slot = .held .queued chip := by
  have moved : endSlot (.chip job position copy slot) v s = { s with sc := setSlot slot (.held .queued chip) s.sc } := by
    simp [endSlot, more, moveSlot_held recording]
  rw [moved]
  exact slotAt_setSlot_same _ inside

theorem endSlot_others {i : Nat} (apart : i ≠ slot) :
    slotAt (endSlot (.chip job position copy slot) v s).sc i = slotAt s.sc i := by
  unfold endSlot
  simp only
  split
  · unfold releaseSlot
    split
    · exact slotAt_setSlot_other _ apart.symm
    · rfl
  · exact moveSlot_other _ apart.symm

end Slot

/-! ### CARD ACCEPTED (R141, R145, R159) -/

section Accepted
variable {s : State} {c : Card} {echo : Word16}

theorem answered_card (card : s.cli.card = some c) (awaits : c.state = .awaiting) {n : Nat} (echoes : n = c.tray) :
    answered s n = some c := by
  unfold answered
  rw [card]
  exact if_pos ⟨awaits, echoes.symm⟩

theorem exec_cardAccepted_answered (card : s.cli.card = some c) (awaits : c.state = .awaiting)
    (echoes : echo.toNat = c.tray) :
    exec (.cardAccepted echo) s = .next (finish (settle (endAttempt c .completed (fresh s)))) := by
  simp only [exec, execCardAccepted, takeAccepted, answered_card (s := fresh s) card awaits echoes]

theorem separatorDone_opening {b : BreakIn} (breakIn : s.cs.breakIn = some b) (opening : b.phase = .opening) :
    separatorDone s = { s with cs := { s.cs with breakIn := some { b with phase := .running } } } := by
  unfold separatorDone
  simp only [breakIn, opening]

theorem separatorDone_closing {b : BreakIn} (breakIn : s.cs.breakIn = some b) (closing : b.phase = .closing) :
    separatorDone s = { s with cs := { s.cs with current := some b.interrupted, breakIn := none } } := by
  unfold separatorDone
  simp only [breakIn, closing]

end Accepted

/-- Settles O50: the attempt ends COMPLETED; the job by `stepProgress`, the break-in by `separatorDone`. -/
theorem cardAcceptedCompletes : Obligations.CardAcceptedCompletes := by
  refine ⟨?chip, ?separator⟩
  case chip =>
    intro s c echo j position copy slot chip card awaits echoes kind found next inside enabled recording
    have ended := attemptEnded c .completed (fresh s)
    have cs := ended.cs
    have slots := slotAt_of_slots ended.slots
    rw [report_done c _ (fresh s) rfl, kind] at cs
    rw [kind] at slots
    subst next
    have copies : lastCopy (fresh s) j.id j.nextCopy = decide (j.copies ≤ j.nextCopy) := lastCopy_eq found _
    refine ⟨_, _, exec_cardAccepted_answered card awaits echoes, finish_settle_setsOff _, ended.cli, ended.fli,
      ended.retry rfl, ended.cardOut, ended.sau, ended.rs, fun last => ?freed, fun more => ?queued, fun more inList => ?copy,
      fun last more => ?position, fun last ends => ?ends, fun i apart => (slots i).trans (endSlot_others apart)⟩
    case freed =>
      exact (slots slot).trans (endSlot_frees (s := fresh s) recording inside enabled (by simp [Verdict.done, copies, last]))
    case queued =>
      exact (slots slot).trans (endSlot_queues (s := fresh s) recording inside (by simp [Verdict.done, copies, more]))
    case copy =>
      rw [cs, ← stepProgress_copy more]
      exact jobDone_found (s := lastNoted c (fresh s)) found (by rw [stepProgress_copy more]; exact inList)
    case position =>
      rw [cs, ← stepProgress_position last]
      exact jobDone_found (s := lastNoted c (fresh s)) found (by rw [stepProgress_position last]; exact more)
    case ends =>
      rw [cs]
      show (jobDone j.id (lastNoted c (fresh s))).cs.queue = _ ∧ (jobDone j.id (lastNoted c (fresh s))).cs.current = none
      rw [jobDone_ends (s := lastNoted c (fresh s)) found (by rw [stepProgress_position last]; exact ends)]
      exact ⟨rfl, rfl⟩
  case separator =>
    intro s c echo b card awaits echoes breakIn phase
    have ended := attemptEnded c .completed (fresh s)
    have separator : (endAttempt c .completed (fresh s)).cs = (separatorDone (lastNoted c (fresh s))).cs
        ∧ (endSlot c.kind .completed (fresh s)).sc.slots = s.sc.slots := by
      rw [ended.cs, report_done c _ (fresh s) rfl]
      rcases phase with ⟨kind, _⟩ | ⟨kind, _⟩ <;> rw [kind] <;> exact ⟨rfl, rfl⟩
    obtain ⟨cs, slots⟩ := separator
    refine ⟨_, _, exec_cardAccepted_answered card awaits echoes, finish_settle_setsOff _, ended.cli, ended.fli,
      ended.slots.trans slots, ended.cardOut, ?queue, fun opening => ?opening, fun closing => ?closing⟩
    case queue =>
      rw [cs]
      rcases phase with ⟨_, phase⟩ | ⟨_, phase⟩
      · rw [separatorDone_opening (s := lastNoted c (fresh s)) breakIn phase]; rfl
      · rw [separatorDone_closing (s := lastNoted c (fresh s)) breakIn phase]; rfl
    case opening =>
      rw [cs, separatorDone_opening (s := lastNoted c (fresh s)) breakIn opening]
      exact ⟨rfl, rfl⟩
    case closing =>
      rw [cs, separatorDone_closing (s := lastNoted c (fresh s)) breakIn closing]
      exact ⟨rfl, rfl⟩

/-! ### A failed attempt (R141, R157, R159) -/

section Failed
variable {s : State} {c : Card} {i : Instr} {cause : Cause}

theorem exec_fails (card : s.cli.card = some c) (awaits : c.state = .awaiting) (fails : Fails s c i cause) :
    exec i s = .next (finish (settle (endAttempt c (failedVerdict s c cause) (fresh s)))) := by
  cases fails with
  | spoiled echo reason echoes =>
    simp only [exec, execCardSpoiled, takeSpoiled, answered_card (s := fresh s) card awaits echoes]
    rfl
  | timeout running =>
    have timed : timedCard s = some c := by
      unfold timedCard
      rw [card]
      exact if_pos ⟨awaits, running⟩
    rw [exec_responseTimerExpiry, timed]
    rfl

theorem failedVerdict_chip {j : Job} {position copy slot : Nat} (kind : c.kind = .chip j.id position copy slot)
    (found : findJob j.id s.cs.queue = some j) :
    failedVerdict s c cause = if c.attempt ≤ j.retries then .retry cause else .rejected cause := by
  unfold failedVerdict retriesOf
  simp only [kind, found, Option.map_some, Option.getD_some, Nat.lt_succ_iff]

/-- R159 step 5, R172: CARD_REJECTED joins the notices when there is room. -/
theorem rejected_notices (room : s.fli.notices.length < 32) : (noticeRejected c (.rejected cause) s).fli.notices
    = s.fli.notices ++ [cardNotice s .cardRejected c.kind (codedTray cause.code c.tray)] := by
  show (raiseNotice _ s).fli.notices = _
  exact (raisesOnly_raiseNotice _ s).notices room

theorem rejected_replies : (noticeRejected c (.rejected cause) s).fli.replies = s.fli.replies := raiseNotice_replies ..

end Failed

/-- Settles O51: the verdict decides between a retry and REJECTED. -/
theorem failedAttempt : Obligations.FailedAttempt := by
  intro s c i cause j position copy slot chip card awaits fails kind found inside enabled recording
  have ended := attemptEnded c (failedVerdict s c cause) (fresh s)
  have slots := slotAt_of_slots ended.slots slot
  have copies : lastCopy (fresh s) j.id copy = decide (j.copies ≤ copy) := lastCopy_eq found _
  rw [kind] at slots
  refine ⟨_, _, exec_fails card awaits fails, finish_settle_setsOff _, congrArg Cli.card ended.cli,
    congrArg Cli.timer ended.cli, ended.cardOut, fun below => ?retry, fun beyond => ?rejected⟩
  case retry =>
    have verdict : failedVerdict s c cause = .retry cause := (failedVerdict_chip kind found).trans (if_pos below)
    rw [verdict] at ended slots ⊢
    exact ⟨congrArg Cli.failed ended.cli, (congrArg Cli.nextTray ended.cli).trans rfl, congrArg Cs.retry ended.cs,
      (congrArg Cs.queue ended.cs).trans rfl, ended.fli, slots.trans (endSlot_queues (s := fresh s) recording inside rfl)⟩
  case rejected =>
    have verdict : failedVerdict s c cause = .rejected cause :=
      (failedVerdict_chip kind found).trans (if_neg (Nat.not_le.2 beyond))
    rw [verdict] at ended slots ⊢
    refine ⟨congrArg Cli.failed ended.cli, congrArg Cli.nextTray ended.cli, ended.retry rfl,
      fun room => ⟨_, (congrArg Fli.notices ended.fli).trans (rejected_notices room), rfl, ?key, rfl, rfl⟩,
      fun last => ?freed, fun more => ?queued⟩
    case key => simp [cardNotice, cardKey, kind, found]
    case freed =>
      exact slots.trans (endSlot_frees (s := fresh s) recording inside enabled (by simp [Verdict.done, copies, last]))
    case queued =>
      exact slots.trans (endSlot_queues (s := fresh s) recording inside (by simp [Verdict.done, copies, more]))

/-! ### CARD CANCEL (R146, R162) -/

/-- The answer to a CARD CANCEL of the card `c`, and CARD ABANDON. -/
def abandoned (tag : Byte) (c : Card) (s : State) : State :=
  sendCard (cardAbandonRecord c.tray) (answeredBy tag 0x46 (.ok (.cancelled (some (c.tray, c.attempt)))) s)

theorem exec_cardCancel_taken {s : State} {tag : Byte} (head : mgmtHead s = some (tag, .cardCancel)) :
    exec .cardCancel s = .next (finish (cardCancelOp tag (taken s))) := by
  rw [exec_cardCancel]; simp [headCardCancel, head, actOn]

theorem cardCancelOp_none {s : State} (tag : Byte) (noCard : s.cli.card = none) :
    cardCancelOp tag s = placeReply tag 0x46 (.ok (.cancelled none)) s := by
  unfold cardCancelOp
  rw [noCard]

theorem cardCancelOp_card {s : State} (tag : Byte) {c : Card} (card : s.cli.card = some c) :
    cardCancelOp tag (taken s) = settle (endAttempt c (.rejected .cancelled) (abandoned tag c s)) := by
  unfold cardCancelOp
  rw [show (taken s).cli.card = some c from card]
  rfl

/-- Settles O53: the attempt ends REJECTED after the reply and CARD ABANDON. -/
theorem cardCancelRejects : Obligations.CardCancelRejects := by
  refine fun s tag head => ⟨fun noCard => ?none, fun c card => ?card⟩
  case none => exact completes_command (exec_cardCancel_taken head) (cardCancelOp_none (s := taken s) tag noCard)
  case card =>
    have ended := attemptEnded c (.rejected .cancelled) (abandoned tag c s)
    have completes := exec_cardCancel_taken head
    rw [cardCancelOp_card tag card] at completes
    refine ⟨_, _, completes, finish_settle_setsOff _, ?replies, ended.cardOut, ended.cli, ended.retry rfl,
      fun room => ⟨cardNotice (abandoned tag c s) .cardRejected c.kind (codedTray Cause.cancelled.code c.tray), ?notices,
        rfl, rfl⟩, fun r read => ?read⟩
    case replies =>
      rw [ended.fli, rejected_replies]
      exact congrArg (· ++ _) (takeHead_replies s.fli)
    case notices =>
      have same : (abandoned tag c s).fli.notices = s.fli.notices := takeHead_notices s.fli
      rw [ended.fli, rejected_notices (by rwa [same]), same]
    case read =>
      rw [ended.read]
      show s.sc.read.map _ = _
      rw [read]
      rfl

end Sys2Proof.Machine
end

section
/-! SUPPORT. The choice of the next card: the job selected, the break-in, and what a boundary hands over (R137 to R139, R141,
R144, R145). The statement O48. -/

namespace Sys2Proof.Machine

-- Checked one after another, as the tests are, to hold the memory and the threads down.
set_option Elab.async false

/-! ### The order of jobs (R139) -/

theorem goesBefore_iff (mu : Mu) (b a : Job) : goesBefore mu b a = true ↔
    (classAt mu a.cls).level < (classAt mu b.cls).level
      ∨ ((classAt mu a.cls).level = (classAt mu b.cls).level ∧ b.cls < a.cls) := by
  simp [goesBefore]

theorem not_goesBefore_trans {mu : Mu} {a b c : Job} (ab : goesBefore mu a b = false) (bc : goesBefore mu b c = false) :
    goesBefore mu a c = false := by
  rw [Bool.eq_false_iff, ne_eq, goesBefore_iff] at *
  omega

theorem goesBefore_asymm {mu : Mu} {a b : Job} (before : goesBefore mu a b = true) : goesBefore mu b a = false := by
  rw [goesBefore_iff] at before
  rw [Bool.eq_false_iff, ne_eq, goesBefore_iff]
  omega

theorem bestJob_none {mu : Mu} {l : List Job} : bestJob mu l = none ↔ l = [] := by
  cases l with
  | nil => simp [bestJob]
  | cons j js =>
    unfold bestJob
    split
    · simp
    · split <;> simp

/-- R139: the job `j` of a list goes before every job that stands ahead of it there, and none that stands behind it goes
before it. -/
def BestOf (mu : Mu) (l : List Job) (j : Job) : Prop :=
  ∃ before after, l = before ++ j :: after ∧ (∀ k, k ∈ before → goesBefore mu j k = true)
    ∧ ∀ k, k ∈ after → goesBefore mu k j = false

theorem BestOf.not_before {mu : Mu} {l : List Job} {j k : Job} (best : BestOf mu l j) (inList : k ∈ l) :
    goesBefore mu k j = false := by
  obtain ⟨before, after, rfl, ahead, behind⟩ := best
  rcases List.mem_append.1 inList with h | h
  · exact goesBefore_asymm (ahead k h)
  · rcases List.mem_cons.1 h with rfl | h
    · simp [goesBefore]
    · exact behind k h

theorem bestJob_best {mu : Mu} {l : List Job} {j : Job} (best : bestJob mu l = some j) : BestOf mu l j := by
  induction l generalizing j with
  | nil => cases best
  | cons x xs ih =>
    unfold bestJob at best
    split at best
    case h_1 none =>
      cases best
      rw [bestJob_none.1 none]
      exact ⟨[], [], rfl, nofun, nofun⟩
    case h_2 k some =>
      have rest := ih some
      split at best
      case isTrue better =>
        cases best
        obtain ⟨before, after, split, ahead, behind⟩ := rest
        refine ⟨x :: before, after, by rw [split]; rfl, fun m inList => ?_, behind⟩
        rcases List.mem_cons.1 inList with rfl | inList
        · exact better
        · exact ahead m inList
      case isFalse notBetter =>
        cases best
        exact ⟨[], xs, rfl, nofun, fun m inList =>
          not_goesBefore_trans (rest.not_before inList) (Bool.eq_false_iff.2 notBetter)⟩

/-! ### The break-in test (R144) -/

section BreakIn
variable {s : State} {j : Job}

theorem breakInJob_none (quiet : s.cs.last ≠ .job j.id ∨ (classAt s.mu j.cls).yield = false
    ∨ (jobsAhead s.cs.queue).filter (mayBreakIn s.mu j.id) = []) : breakInJob s j = none := by
  unfold breakInJob
  split
  case isTrue sought =>
    rcases quiet with last | yields | empty
    · exact absurd sought.1 last
    · exact absurd sought.2 (by simp [yields])
    · exact bestJob_none.2 empty
  case isFalse => rfl

theorem breakInJob_some (last : s.cs.last = .job j.id) (yields : (classAt s.mu j.cls).yield = true)
    (urgent : (jobsAhead s.cs.queue).filter (mayBreakIn s.mu j.id) ≠ []) :
    ∃ u, breakInJob s j = some u ∧ BestOf s.mu ((jobsAhead s.cs.queue).filter (mayBreakIn s.mu j.id)) u := by
  have sought : breakInJob s j = bestJob s.mu ((jobsAhead s.cs.queue).filter (mayBreakIn s.mu j.id)) :=
    if_pos ⟨last, yields⟩
  obtain ⟨u, chosen⟩ := Option.ne_none_iff_exists'.1 (mt bestJob_none.1 urgent)
  exact ⟨u, sought.trans chosen, bestJob_best chosen⟩

end BreakIn

/-! ### The card chosen (R138, R141, R145) -/

section Choice
variable {s : State} {j : Job} {p : CardPos}

theorem nextChip_of (next : j.cards[j.nextPos]? = some p) :
    nextChip j = some (.chip j.id (j.nextPos + 1) j.nextCopy p.slot) := by
  simp [nextChip, nextPosition, next]

theorem presentKind_opening {b : BreakIn} (breakIn : s.cs.breakIn = some b) (opening : b.phase = .opening) :
    presentKind s = some .separatorOpen := by
  unfold presentKind
  simp only [breakIn, opening]

theorem presentKind_closing {b : BreakIn} (breakIn : s.cs.breakIn = some b) (closing : b.phase = .closing) :
    presentKind s = some .separatorClose := by
  unfold presentKind
  simp only [breakIn, closing]

/-- R138, R145: with no separator to send, the card is the current job's next one. -/
theorem presentKind_chip (noSeparator : ∀ b, s.cs.breakIn = some b → b.phase = .running)
    (current : currentJob s = some j) (next : j.cards[j.nextPos]? = some p) :
    presentKind s = some (.chip j.id (j.nextPos + 1) j.nextCopy p.slot) := by
  unfold presentKind
  split
  case h_1 b breakIn =>
    simp only [noSeparator b breakIn, current, Option.bind_some, nextChip_of next]
  case h_2 => simp only [current, Option.bind_some, nextChip_of next]

/-- R138 steps 1 and 2: a pending retry goes first, and with none a break-in in progress. -/
theorem chooseCard_present {a : Nat}
    (first : s.cs.retry = some a ∨ (s.cs.retry = none ∧ s.cs.breakIn ≠ none ∧ a = 1)) :
    chooseCard s = (presentKind s).map (fun k => (s, k, a)) := by
  unfold chooseCard
  rcases first with retry | ⟨retry, breakIn, rfl⟩
  · rw [retry]
  · obtain ⟨b, breakIn⟩ := Option.ne_none_iff_exists'.1 breakIn
    rw [retry, breakIn]

theorem chooseCard_breaksIn {u : Job} (retry : s.cs.retry = none) (breakIn : s.cs.breakIn = none)
    (current : currentJob s = some j) (urgent : breakInJob s j = some u) :
    chooseCard s = some (startBreakIn j u s, .separatorOpen, 1) := by
  unfold chooseCard
  simp only [retry, breakIn, current, urgent]

theorem chooseCard_current (retry : s.cs.retry = none) (breakIn : s.cs.breakIn = none) (current : currentJob s = some j)
    (quiet : breakInJob s j = none) (next : j.cards[j.nextPos]? = some p) :
    chooseCard s = some (s, .chip j.id (j.nextPos + 1) j.nextCopy p.slot, 1) := by
  unfold chooseCard
  simp only [retry, breakIn, current, quiet, nextChip_of next, Option.map_some]

theorem chooseCard_selected (retry : s.cs.retry = none) (breakIn : s.cs.breakIn = none) (idle : currentJob s = none)
    (selected : selectJob s = some j) (next : j.cards[j.nextPos]? = some p) :
    chooseCard s = some ({ s with cs := { s.cs with current := some j.id } },
      .chip j.id (j.nextPos + 1) j.nextCopy p.slot, 1) := by
  unfold chooseCard
  simp only [retry, breakIn, idle, selected, nextChip_of next, Option.map_some]

end Choice

/-! ### A boundary (Table 1-5, R138) -/

section Boundary
variable {s : State}

theorem boundaryCard_open (noCard : s.cli.card = none) (ready : s.cli.ready = true) (awake : s.sc.mode ≠ .retaining) :
    boundaryCard s = chooseCard s := by
  simp [boundaryCard, boundary, noCard, ready, awake]

theorem boundaryCard_shut (shut : s.cli.card ≠ none ∨ s.cli.ready = false ∨ s.sc.mode = .retaining) :
    boundaryCard s = none := by
  have notBoundary : boundary s = false := by
    rcases shut with card | ready | asleep
    · simp [boundary, Option.isNone_eq_false_iff.2 (Option.isSome_iff_ne_none.2 card)]
    · simp [boundary, ready]
    · simp [boundary, asleep]
  exact if_neg (Bool.eq_false_iff.1 notBoundary)

/-- R138: with nothing before it, the card chosen is opened at a boundary. -/
theorem settleStep_opens {t : State} {k : CardKind} {a : Nat} (next : CardsNext s) (quiet : NoRelease s)
    (noMarker : markerReady s = false) (noCard : s.cli.card = none) (ready : s.cli.ready = true)
    (awake : s.sc.mode ≠ .retaining) (chosen : chooseCard s = some (t, k, a)) : settleStep s = some (openCard k a t) := by
  rw [settleStep_card next quiet noMarker, boundaryCard_open noCard ready awake, chosen]
  rfl

end Boundary

/-! ### The last card of a break-in's job (R145) -/

/-- R142, R145: the CS once the last card of the job `id` has ended, with the break-in `b` running. -/
def breakInClosing (id : Nat) (b : BreakIn) (cs : Cs) : Cs :=
  { cs with
    queue := cs.queue.filter (fun e => !e.isJob id), current := none, breakIn := some { b with phase := .closing }
    last := .job id }

theorem endAttempt_closes {s : State} {c : Card} {j : Job} {b : BreakIn} {position slot : Nat}
    (kind : c.kind = .chip j.id position j.nextCopy slot) (found : findJob j.id s.cs.queue = some j)
    (lastCopy : j.copies ≤ j.nextCopy) (lastCard : j.cards.length ≤ j.nextPos + 1) (breakIn : s.cs.breakIn = some b) :
    (endAttempt c .completed s).cs = breakInClosing j.id b s.cs := by
  rw [(attemptEnded c .completed s).cs, report_done c _ s rfl, kind]
  show (jobDone j.id (lastNoted c s)).cs = _
  rw [jobDone_ends (s := lastNoted c s) found (by rw [stepProgress_position lastCopy]; exact lastCard)]
  simp [endJob, lastNoted, breakIn, kind, CardKind.asLast, breakInClosing, dropJob]

/-- Settles O48: the best job by `BestOf`, the choice by the steps of R138, the boundary by `settleStep_card`. -/
theorem selectionOrder : Obligations.SelectionOrder := by
  refine ⟨fun s => ⟨fun j => bestJob_best, bestJob_none.1, fun a b => goesBefore_iff s.mu b a⟩, ?breakIn, ?chosen,
    ?first, ?boundary, ?closing⟩
  case breakIn =>
    rintro s j urgent rfl
    refine ⟨breakInJob_none, fun last yields urgent => ?_⟩
    obtain ⟨u, chosen, before, after, best⟩ := breakInJob_some last yields urgent
    exact ⟨u, before, after, chosen, best⟩
  case chosen =>
    exact fun s retry breakIn => ⟨fun j current =>
      ⟨fun u urgent => ⟨_, chooseCard_breaksIn retry breakIn current urgent, rfl⟩,
        fun quiet p next => chooseCard_current retry breakIn current quiet next⟩,
      fun idle j p selected next => chooseCard_selected retry breakIn idle selected next⟩
  case first =>
    intro s a first
    rw [chooseCard_present first]
    refine ⟨fun b breakIn phase => ?_, fun b breakIn phase => ?_, fun noSeparator j p current next => ?_⟩
    · rw [presentKind_opening breakIn phase]; rfl
    · rw [presentKind_closing breakIn phase]; rfl
    · rw [presentKind_chip noSeparator current next]; rfl
  case boundary =>
    refine fun s next quiet noMarker => ⟨fun noCard ready awake => ⟨fun t k a => ?_, fun none => ?_⟩, fun shut => ?_⟩
    · exact settleStep_opens next quiet noMarker noCard ready awake
    · rw [settleStep_card next quiet noMarker, boundaryCard_open noCard ready awake, none]; rfl
    · rw [settleStep_card next quiet noMarker, boundaryCard_shut shut]; rfl
  case closing =>
    rintro s c echo j b position copy slot card awaits echoes kind found rfl lastCopy lastCard breakIn running
    have closes := endAttempt_closes (s := fresh s) kind found lastCopy lastCard breakIn
    refine ⟨_, _, exec_cardAccepted_answered card awaits echoes, finish_settle_setsOff _, closes, fun retry => ?_⟩
    have noRetry : (endAttempt c .completed (fresh s)).cs.retry = none := (congrArg Cs.retry closes).trans retry
    have phase : (endAttempt c .completed (fresh s)).cs.breakIn = some { b with phase := .closing } :=
      congrArg Cs.breakIn closes
    rw [chooseCard_present (.inr ⟨noRetry, by rw [phase]; nofun, rfl⟩), presentKind_closing phase rfl]
    rfl

end Sys2Proof.Machine
end

section
/-! SUPPORT. The sending of a card: its opening, its rows in order, CARD CLOSE, and how RECORDER STATE pauses and resumes it
(R138, R141, R153 to R158). The statement O49. -/

namespace Sys2Proof.Machine

-- Checked one after another, as the tests are, to hold the memory and the threads down.
set_option Elab.async false

/-! ### One step of the sending (R155, R156) -/

section Pump
variable {s : State} {c : Card} {slot : Nat}

theorem pump_noCard (noCard : s.cli.card = none) : pump s = s := by
  unfold pump
  rw [noCard]

theorem pump_still (card : s.cli.card = some c) (still : c.state ≠ .sending) : pump s = s := by
  unfold pump
  rw [card]
  cases state : c.state with
  | sending => exact absurd state still
  | paused | awaiting => simp only [state]

theorem pump_chip {job position copy : Nat} (card : s.cli.card = some c) (sending : c.state = .sending)
    (kind : c.kind = .chip job position copy slot) : pump s = pumpChip c slot s := by
  unfold pump
  simp only [card, sending, kind]

theorem pump_separator (card : s.cli.card = some c) (sending : c.state = .sending)
    (kind : c.kind = .separatorOpen ∨ c.kind = .separatorClose) : pump s = closeCard c s := by
  unfold pump
  rcases kind with kind | kind <;> simp only [card, sending, kind]

/-- R155 step 1: the row of the next line is asked for, once no other read burst is out. -/
def rowAsked (slot row : Nat) (sc : Sc) : Sc :=
  { sc with read := some (sc.read.getD { slot := slot, row := row, active := false, discard := false, release := false }) }

theorem rowAsked_alone {sc : Sc} (noRead : sc.read = none) (row : Nat) : rowAsked slot row sc = askRead slot row sc := by
  unfold rowAsked
  rw [noRead]
  rfl

theorem rowAsked_waits {sc : Sc} {r : ReadBurst} (read : sc.read = some r) (row : Nat) : rowAsked slot row sc = sc := by
  show { sc with read := some (sc.read.getD _) } = sc
  rw [read, Option.getD_some, ← read]

theorem nextStep_asks (more : c.nextLine < 2912) (s : State) :
    nextStep c slot s = { s with sc := rowAsked slot c.nextLine s.sc } := by
  have notLast : ¬ Config.chipRows ≤ c.nextLine := Nat.not_le.2 more
  unfold nextStep
  rw [if_neg notLast]
  cases read : s.sc.read with
  | none => rw [rowAsked_alone read]; rfl
  | some r => rw [rowAsked_waits read]; rfl

theorem nextStep_closes (last : 2912 ≤ c.nextLine) (s : State) : nextStep c slot s = closeCard c s := if_pos last

theorem pumpChip_row {row : List Byte} (buffer : c.buffer = some row) (s : State) : pumpChip c slot s =
    nextStep { c with buffer := none, nextLine := c.nextLine + 1 } slot (sendLine c slot row s) := by
  unfold pumpChip
  rw [buffer]

theorem pumpChip_empty (buffer : c.buffer = none) (s : State) : pumpChip c slot s = nextStep c slot s := by
  unfold pumpChip
  rw [buffer]

theorem chipAt_held {sc : Sc} {state : ChipState} {chip : Chip} (stands : slotAt sc slot = .held state chip) :
    chipAt sc slot = some chip := by
  unfold chipAt
  rw [stands]

/-- R155 step 2: the CHIP LINE of the row in the line buffer goes out at the slot's depth. -/
theorem sendLine_held {state : ChipState} {chip : Chip} (stands : slotAt s.sc slot = .held state chip) (row : List Byte) :
    sendLine c slot row s = { s with
      cli := { s.cli with card := some { c with buffer := none, nextLine := c.nextLine + 1 } }
      cardOut := s.cardOut ++ [chipLineRecord chip.depth c.nextLine row] } := by
  unfold sendLine
  rw [chipAt_held stands]
  rfl

/-! What a SENDING chip card does next, the row in its line buffer first. -/

section Sending
variable {job position copy : Nat} {row : List Byte} {chip : Chip} {state : ChipState}

theorem pump_asks (card : s.cli.card = some c) (sending : c.state = .sending) (kind : c.kind = .chip job position copy slot)
    (buffer : c.buffer = none) (more : c.nextLine < 2912) : pump s = { s with sc := rowAsked slot c.nextLine s.sc } := by
  rw [pump_chip card sending kind, pumpChip_empty buffer, nextStep_asks more]

theorem pump_row (card : s.cli.card = some c) (sending : c.state = .sending) (kind : c.kind = .chip job position copy slot)
    (stands : slotAt s.sc slot = .held state chip) (buffer : c.buffer = some row) (more : c.nextLine < 2911) :
    pump s = { s with
      cli := { s.cli with card := some { c with buffer := none, nextLine := c.nextLine + 1 } }
      cardOut := s.cardOut ++ [chipLineRecord chip.depth c.nextLine row]
      sc := rowAsked slot (c.nextLine + 1) s.sc } := by
  rw [pump_chip card sending kind, pumpChip_row buffer, nextStep_asks (Nat.succ_lt_succ more), sendLine_held stands]

/-- R156, R157: after line 2,911 CARD CLOSE goes out and the response timer runs. -/
theorem pump_lastRow (card : s.cli.card = some c) (sending : c.state = .sending)
    (kind : c.kind = .chip job position copy slot) (stands : slotAt s.sc slot = .held state chip)
    (buffer : c.buffer = some row) (last : c.nextLine = 2911) : pump s = { s with
      cli := { s.cli with
        card := some { c with buffer := none, nextLine := 2912, state := .awaiting }, timer := some s.cli.timeout }
      cardOut := s.cardOut ++ [chipLineRecord chip.depth 2911 row, cardCloseRecord c.tray] } := by
  have atEnd : 2912 ≤ c.nextLine + 1 := Nat.le_of_eq (congrArg (· + 1) last.symm)
  rw [pump_chip card sending kind, pumpChip_row buffer, nextStep_closes atEnd, sendLine_held stands, last]
  simp only [closeCard, sendCard, List.append_assoc, List.cons_append, List.nil_append]

end Sending

end Pump

/-! ### A card is opened (R153, R154) -/

section Open
variable {s : State} {j : Job} {p : CardPos} {chip : Chip}

/-- R153: the header of the next card of the job `j`, whose chip is `chip`. -/
def openHeader (j : Job) (p : CardPos) (chip : Chip) (batch a tray : Nat) : CardHeader where
  number := (j.key.map DrawingKey.number).getD (List.replicate 16 0x20)
  revision := j.key.bind DrawingKey.revision
  sheet := if j.key.isSome then p.sheet else 0
  sheetCount := j.sheetCount.getD 0
  re := chip.re
  roll := chip.roll
  ordinal := chip.ordinal
  cls := j.cls
  copy := j.nextCopy
  attempt := a
  batch := batch
  tray := tray
  flags := { chip.flags with shortSet := j.short, spill := j.spill }
  depth := chip.depth

theorem currentJob_found (current : currentJob s = some j) : findJob j.id s.cs.queue = some j := by
  unfold currentJob at current
  split at current
  · rwa [findJob_id current]
  · cases current

theorem chipHeader_eq (found : findJob j.id s.cs.queue = some j) (next : j.cards[j.nextPos]? = some p) {state : ChipState}
    (stands : slotAt s.sc p.slot = .held state chip) (a tray : Nat) :
    chipHeader s j.id (j.nextPos + 1) j.nextCopy p.slot a tray = openHeader j p chip s.cli.batch a tray := by
  simp [chipHeader, found, chipAt_held stands, next, openHeader, blankNumber, blankCharacter]

theorem openCard_chip (found : findJob j.id s.cs.queue = some j) (next : j.cards[j.nextPos]? = some p)
    (queued : slotAt s.sc p.slot = .held .queued chip) (a : Nat) :
    openCard (.chip j.id (j.nextPos + 1) j.nextCopy p.slot) a s = { s with
      cs := { s.cs with retry := none }
      sc := rowAsked p.slot 0 (setSlot p.slot (.held .recording chip) s.sc)
      cli := { s.cli with
        failed := none
        card := some { state := .sending, kind := .chip j.id (j.nextPos + 1) j.nextCopy p.slot, attempt := a
                       tray := trayFor s.cli a, nextLine := 0, buffer := none } }
      cardOut := s.cardOut ++ [cardOpenRecord (openHeader j p chip s.cli.batch a (trayFor s.cli a))] } := by
  unfold openCard
  simp only [headerOf, chipHeader_eq found next queued, openSlot, moveSlot_held queued]
  rw [pump_chip rfl rfl rfl, pumpChip_empty rfl, nextStep_asks (Nat.succ_pos 2911)]
  rfl

/-- R153: the header of a separator of the break-in `b`. -/
def breakInHeader (b : BreakIn) (flags : CardFlags) (batch a tray : Nat) : CardHeader where
  number := (b.key.map DrawingKey.number).getD (List.replicate 16 0x20)
  revision := b.key.bind DrawingKey.revision
  sheet := 0
  sheetCount := b.sheetCount.getD 0
  re := 0
  roll := 0
  ordinal := 0
  cls := b.cls
  copy := 1
  attempt := a
  batch := batch
  tray := tray
  flags := flags
  depth := 0

theorem headerOf_separator {k : CardKind} {flags : CardFlags} {b : BreakIn}
    (separator : (k = .separatorOpen ∧ flags = { separatorOpen := true })
      ∨ (k = .separatorClose ∧ flags = { separatorClose := true }))
    (breakIn : s.cs.breakIn = some b) (a tray : Nat) : headerOf s k a tray = breakInHeader b flags s.cli.batch a tray := by
  rcases separator with ⟨rfl, rfl⟩ | ⟨rfl, rfl⟩ <;>
    simp [headerOf, separatorHeader, breakIn, breakInHeader, blankNumber, blankCharacter]

/-- R153, R156: a separator goes on to CARD CLOSE at once. -/
theorem openCard_separator {k : CardKind} {flags : CardFlags} {b : BreakIn}
    (separator : (k = .separatorOpen ∧ flags = { separatorOpen := true })
      ∨ (k = .separatorClose ∧ flags = { separatorClose := true }))
    (breakIn : s.cs.breakIn = some b) (a : Nat) : openCard k a s = { s with
      cs := { s.cs with retry := none }
      cli := { s.cli with
        failed := none, timer := some s.cli.timeout
        card := some { state := .awaiting, kind := k, attempt := a, tray := trayFor s.cli a, nextLine := 0
                       buffer := none } }
      cardOut := s.cardOut ++ [cardOpenRecord (breakInHeader b flags s.cli.batch a (trayFor s.cli a)),
        cardCloseRecord (trayFor s.cli a)] } := by
  have noSlot : openSlot k s.sc = s.sc := by rcases separator with ⟨rfl, _⟩ | ⟨rfl, _⟩ <;> rfl
  unfold openCard
  simp only [headerOf_separator separator breakIn, noSlot]
  rw [pump_separator rfl rfl (separator.imp And.left And.left)]
  simp [closeCard, sendCard]

/-- R138, R141, R145: with no break-in to begin and no separator to send, the current job's next card is chosen. -/
theorem chooseCard_nextChip {a : Nat} (attempt : (s.cs.retry = none ∧ a = 1) ∨ s.cs.retry = some a)
    (before : (s.cs.breakIn = none ∧ (s.cs.retry = none → breakInJob s j = none))
      ∨ ∃ b, s.cs.breakIn = some b ∧ b.phase = .running)
    (current : currentJob s = some j) (next : j.cards[j.nextPos]? = some p) :
    chooseCard s = some (s, .chip j.id (j.nextPos + 1) j.nextCopy p.slot, a) := by
  have noSeparator : ∀ b, s.cs.breakIn = some b → b.phase = .running := by
    rcases before with ⟨breakIn, _⟩ | ⟨b, breakIn, running⟩
    · rw [breakIn]; nofun
    · rw [breakIn]; rintro _ ⟨⟩; exact running
  have present (first : s.cs.retry = some a ∨ (s.cs.retry = none ∧ s.cs.breakIn ≠ none ∧ a = 1)) :
      chooseCard s = some (s, .chip j.id (j.nextPos + 1) j.nextCopy p.slot, a) := by
    rw [chooseCard_present first, presentKind_chip noSeparator current next, Option.map_some]
  rcases attempt with ⟨retry, rfl⟩ | retry
  · rcases before with ⟨breakIn, quiet⟩ | ⟨b, breakIn, _⟩
    · exact chooseCard_current retry breakIn current (quiet retry) next
    · exact present (.inr ⟨retry, by rw [breakIn]; nofun, rfl⟩)
  · exact present (.inl retry)

/-- R154 step 1: attempt 1 takes the next tray sequence, a retry the one of the failed-attempt record. -/
theorem trayFor_eq {a tray : Nat} (attempt : (s.cs.retry = none ∧ a = 1 ∧ tray = s.cli.nextTray)
      ∨ (s.cs.retry = some a ∧ 2 ≤ a ∧ ∃ cause, s.cli.failed = some (tray, cause))) : trayFor s.cli a = tray := by
  unfold trayFor
  rcases attempt with ⟨_, rfl, rfl⟩ | ⟨_, later, cause, failed⟩
  · rfl
  · rw [if_neg (by omega), failed]

end Open

/-! ### READ_BURST_SERVED for the card in flight (R155, R160, R162) -/

section Served
variable {s : State} {r : ReadBurst} {c : Card} {job position copy slot : Nat}

/-- The read burst has ended. -/
def readEnded (s : State) : State := { s with sc := { s.sc with read := none } }

/-- The row read stands in the line buffer of the card in flight. -/
def rowBuffered (r : ReadBurst) (c : Card) (s : State) : State :=
  { readEnded s with
    cli := { s.cli with card := some { c with buffer := some (readRow s.sc.dram r.slot r.row) } } }

theorem readServed_buffers (kept : r.discard = false) (noRelease : r.release = false) (card : s.cli.card = some c) :
    readServed r s = storeOnly (pump (rowBuffered r c s)) := by
  simp [readServed, endRead, bufferRow, kept, noRelease, card, rowBuffered, readEnded]

theorem readServed_dropped (discard : r.discard = true) (noRelease : r.release = false) :
    readServed r s = storeOnly (pump (readEnded s)) := by
  simp [readServed, readEnded, endRead, bufferRow, discard, noRelease]

end Served

/-! ### RECORDER STATE (R158) -/

section Recorder
variable {s : State}

/-- Only the CLI, the read burst and what the part sends on the Card Link have changed. -/
def CardLinkOnly (s t : State) : Prop :=
  ∃ read cli cardOut, t = { s with sc := { s.sc with read := read }, cli := cli, cardOut := cardOut }

theorem CardLinkOnly.refl (s : State) : CardLinkOnly s s := ⟨s.sc.read, s.cli, s.cardOut, rfl⟩

theorem CardLinkOnly.trans {s t u : State} (h : CardLinkOnly s t) (g : CardLinkOnly t u) : CardLinkOnly s u := by
  obtain ⟨_, _, _, rfl⟩ := h
  obtain ⟨_, _, _, rfl⟩ := g
  exact ⟨_, _, _, rfl⟩

theorem cardLinkOnly_nextStep (c : Card) (slot : Nat) (s : State) : CardLinkOnly s (nextStep c slot s) := by
  unfold nextStep
  split
  · exact ⟨s.sc.read, _, _, rfl⟩
  · split
    · exact ⟨_, s.cli, s.cardOut, rfl⟩
    · exact .refl s

theorem cardLinkOnly_pump (s : State) : CardLinkOnly s (pump s) := by
  unfold pump
  split
  · exact .refl s
  · split
    · exact .refl s
    · exact .refl s
    · split
      · unfold pumpChip
        split
        · exact CardLinkOnly.trans (t := sendLine _ _ _ s) ⟨s.sc.read, _, _, rfl⟩ (cardLinkOnly_nextStep ..)
        · exact cardLinkOnly_nextStep ..
      all_goals exact ⟨s.sc.read, _, _, rfl⟩

theorem takeRecorderState_same {ready : Bool} (same : s.cli.ready = ready) : takeRecorderState ready s = s := if_pos same

theorem takeRecorderState_changed {ready : Bool} (changed : s.cli.ready ≠ ready) : takeRecorderState ready s =
    pump { s with cli := { s.cli with ready := ready, card := s.cli.card.map (pauseCard ready) } } := if_neg changed

theorem cardLinkOnly_takeRecorderState (ready : Bool) (s : State) : CardLinkOnly s (takeRecorderState ready s) := by
  by_cases same : s.cli.ready = ready
  · rw [takeRecorderState_same same]
    exact .refl s
  · rw [takeRecorderState_changed same]
    exact CardLinkOnly.trans ⟨s.sc.read, _, s.cardOut, rfl⟩ (cardLinkOnly_pump _)

section Pause
variable {c : Card}

theorem pauseCard_awaiting (awaits : c.state = .awaiting) (ready : Bool) : pauseCard ready c = c := by
  unfold pauseCard
  rw [awaits]

theorem pauseCard_notReady (sending : c.state = .sending) : pauseCard false c = { c with state := .paused } := by
  unfold pauseCard
  rw [sending]

theorem pauseCard_ready (paused : c.state = .paused) : pauseCard true c = { c with state := .sending } := by
  unfold pauseCard
  rw [paused]

end Pause

/-- The part with the state of the recorder and the card in flight changed. -/
def recorderTold (ready : Bool) (card : Option Card) (s : State) : State :=
  { s with cli := { s.cli with ready := ready, card := card } }

theorem takeRecorderState_card {ready : Bool} {c : Card} (changed : s.cli.ready ≠ ready) (card : s.cli.card = some c) :
    takeRecorderState ready s = pump (recorderTold ready (some (pauseCard ready c)) s) := by
  rw [takeRecorderState_changed changed, card]
  rfl

/-- The part with the recorder READY and the card `c`, which was PAUSED, SENDING. -/
def cardResumed (c : Card) (s : State) : State := recorderTold true (some { c with state := .sending }) s

theorem takeRecorderState_resumes {c : Card} (changed : s.cli.ready ≠ true) (card : s.cli.card = some c)
    (paused : c.state = .paused) : takeRecorderState true s = pump (cardResumed c s) := by
  rw [takeRecorderState_card changed card, pauseCard_ready paused]
  rfl

end Recorder

/-- Settles O49: `openCard` at the boundary, `pump` for each row read and for a card resumed. -/
theorem cardSentAndPaused : Obligations.CardSentAndPaused := by
  refine ⟨fun s a tray next quiet noMarker noCard ready awake attempt => ?opened, ?row, ?dropped, ?recorder⟩
  case opened =>
    have opens {t : State} {k : CardKind} :=
      settleStep_opens (t := t) (k := k) (a := a) next quiet noMarker noCard ready awake
    rw [← trayFor_eq attempt]
    refine ⟨fun j p chip before current card inside queued => ?chip,
      fun v k flags b chosen separator breakIn => ?separator⟩
    case chip =>
      have attempts := attempt.imp (fun ⟨retry, one, _⟩ => And.intro retry one) And.left
      have chosen := chooseCard_nextChip attempts before current card
      exact ⟨_, opens chosen, openCard_chip (currentJob_found current) card queued a⟩
    case separator =>
      have same : v = { s with cs := v.cs } := by
        obtain ⟨cs, rfl⟩ := chooseCard_cs chosen
        rfl
      refine ⟨same, _, opens chosen, ?_⟩
      rw [openCard_separator separator breakIn, same]
      rfl
  case row =>
    intro s r c job position copy slot chip active fits kept noRelease card sending kind stands
    have served := readServed_buffers (s := fresh s) kept noRelease card
    refine ⟨fun more => ?_, fun last => ?_⟩
    · refine completes_command (exec_readBurstServed_served active fits) (served.trans ?_)
      rw [pump_row (s := rowBuffered r c (fresh s)) rfl sending kind stands rfl more]
      rfl
    · refine completes_command (exec_readBurstServed_served active fits) (served.trans ?_)
      rw [pump_lastRow (s := rowBuffered r c (fresh s)) rfl sending kind stands rfl last]
      rfl
  case dropped =>
    intro s r c job position copy slot active fits discard noRelease card sending kind buffer more
    refine completes_command (exec_readBurstServed_served active fits) ?_
    rw [readServed_dropped (s := fresh s) discard noRelease,
      pump_asks (s := readEnded (fresh s)) card sending kind buffer more]
    rfl
  case recorder =>
    intro s ready
    refine ⟨takeRecorderState ready (fresh s), _, rfl, finish_settle_setsOff _, ?only,
      fun same => takeRecorderState_same same, fun changed noCard => ?noCard, fun c changed card =>
        ⟨fun awaits => ?awaits, fun sending notReady => ?pauses, ?resumes, ?asks⟩⟩
    case only =>
      obtain ⟨read, cli, cardOut, e⟩ := cardLinkOnly_takeRecorderState ready (fresh s)
      rw [e]
      rfl
    case noCard =>
      rw [takeRecorderState_changed (s := fresh s) changed, pump_noCard (by simp [noCard])]
      simp [noCard]
    case awaits =>
      rw [takeRecorderState_card (s := fresh s) changed card, pauseCard_awaiting awaits,
        pump_still rfl (by rw [awaits]; nofun)]
      simp [recorderTold, card]
    case pauses =>
      subst notReady
      rw [takeRecorderState_card (s := fresh s) changed card, pauseCard_notReady sending,
        pump_still (c := { c with state := .paused }) rfl nofun]
      rfl
    case resumes =>
      rintro job position copy slot row state chip paused rfl kind stands buffer
      rw [takeRecorderState_resumes (s := fresh s) changed card paused]
      refine ⟨fun more noRead => ?_, fun last => ?_⟩
      · rw [pump_row (s := cardResumed c (fresh s)) rfl rfl kind stands buffer more,
          rowAsked_alone (sc := (cardResumed c (fresh s)).sc) noRead]
        rfl
      · rw [pump_lastRow (s := cardResumed c (fresh s)) rfl rfl kind stands buffer last]
        rfl
    case asks =>
      rintro job position copy slot paused rfl kind buffer more
      rw [takeRecorderState_resumes (s := fresh s) changed card paused,
        pump_asks (s := cardResumed c (fresh s)) rfl rfl kind buffer more]
      refine ⟨fun r read => ?_, fun noRead => ?_⟩
      · rw [rowAsked_waits (sc := (cardResumed c (fresh s)).sc) read]; rfl
      · rw [rowAsked_alone (sc := (cardResumed c (fresh s)).sc) noRead]; rfl

end Sys2Proof.Machine
end

section
/-! SUPPORT. What the part makes of the recorder's messages that end no card on their own: late responses, records that fail
their tests, and RECORDER RESTARTED (R152, R159 to R161, R180). The statements O52 and O55. -/

namespace Sys2Proof.Machine

-- Checked one after another, as the tests are, to hold the memory and the threads down.
set_option Elab.async false

/-! ### Late responses (R161) -/

section Late
variable {s : State} {echo : Word16}

theorem exec_cardAccepted_late (late : answered s echo.toNat = none) :
    exec (.cardAccepted echo) s = .next (finish (settle (lateAccepted echo.toNat (fresh s)))) := by
  have notTaken : answered (fresh s) echo.toNat = none := late
  simp only [exec, execCardAccepted, takeAccepted, notTaken]

theorem exec_cardSpoiled_late (late : answered s echo.toNat = none) (reason : SpoilReason) :
    exec (.cardSpoiled echo reason) s = .next (finish (settle (lateSpoiled echo.toNat (fresh s)))) := by
  have notTaken : answered (fresh s) echo.toNat = none := late
  simp only [exec, execCardSpoiled, takeSpoiled, notTaken]

/-- Whatever card LATE_RESPONSE names, it carries the code and the echo, and no set record. -/
theorem lateNotice_carries (s : State) (code n : Nat) : (lateNotice s code n).kind = .lateResponse
    ∧ (lateNotice s code n).setNo = none ∧ (lateNotice s code n).detail = codedTray code n := by
  unfold lateNotice
  split
  · split <;> exact ⟨rfl, rfl, rfl⟩
  · exact ⟨rfl, rfl, rfl⟩

/-- An echo that the failed-attempt record does not hold concerns no card that is known. -/
theorem lateNotice_unmatched {n : Nat} (unmatched : failedEcho s n = false) (code : Nat) :
    lateNotice s code n = plainNotice .lateResponse (codedTray code n) := by
  unfold lateNotice
  split
  · exact if_neg (Bool.eq_false_iff.1 unmatched)
  · rfl

theorem lateNotice_source {n : Nat} (unmatched : failedEcho s n = false) (code : Nat) : (lateNotice s code n).roll = 0
    ∧ (lateNotice s code n).ordinal = 0 ∧ (lateNotice s code n).key = none ∧ (lateNotice s code n).sheet = none := by
  rw [lateNotice_unmatched unmatched]
  exact ⟨rfl, rfl, rfl, rfl⟩

theorem lateAccepted_noticed {n : Nat} (stands : withdrawable s n = false) :
    lateAccepted n s = raiseNotice (lateNotice s 0xD1 n) s := by
  unfold lateAccepted
  rw [stands]
  rfl

theorem lateAccepted_withdraws {n : Nat} {k : CardKind} (withdraws : withdrawable s n = true)
    (present : presentKind s = some k) : lateAccepted n s = withdrawRetry k (raiseNotice (lateNotice s 0xD1 n) s) := by
  unfold lateAccepted
  rw [withdraws, present]
  rfl

/-- R161: only the store knows of the slot that a withdrawn retry gives back. -/
theorem withdrawSlot_frame (k : CardKind) (s : State) : ∃ sc, withdrawSlot k s = { s with sc := sc } := by
  unfold withdrawSlot
  split
  · split
    · exact ⟨_, rfl⟩
    · exact ⟨s.sc, rfl⟩
  all_goals exact ⟨s.sc, rfl⟩

/-- R161: the record and the retry are cleared, the tray sequence moves on, and nothing is told beside. -/
theorem withdrawRetry_clears (k : CardKind) (s : State) :
    (withdrawRetry k s).cli = { s.cli with failed := none, nextTray := nextNumber s.cli.nextTray }
      ∧ (withdrawRetry k s).cs.retry = none ∧ (withdrawRetry k s).fli = s.fli := by
  obtain ⟨sc, freed⟩ := withdrawSlot_frame k s
  unfold withdrawRetry
  rw [freed]
  exact ⟨(copyDone_leaves _ k).cli, copyDone_retry _ k, (copyDone_leaves _ k).fli⟩

end Late

/-! ### Records that are dropped (R152, R180) -/

section Dropped
variable {r : LinkRecord}

theorem spoilReason?_none {b : Byte} (outside : b.toNat = 0 ∨ 4 < b.toNat) : spoilReason? b = none := by
  unfold spoilReason?
  split
  case h_5 => rfl
  all_goals omega

theorem recorderMessage?_badCheck (bad : checkHolds r = false) : recorderMessage? r = none :=
  if_neg (Bool.eq_false_iff.1 bad)

theorem recorderMessage?_badState (kind : r.kind = 0xD0) (bad : r.payload.length ≠ 1 ∨ 1 < nat8 r.payload 0) :
    recorderMessage? r = none := by
  have misfits (one : r.payload.length = 1) : 1 < (byteAt r.payload 0).toNat := bad.resolve_left (not_not_intro one)
  unfold recorderMessage?
  simp only [kind, beq_iff_eq]
  split
  · show (if r.payload.length = 1 then _ else none) = none
    split
    · split
      · have := misfits ‹_›; omega
      · have := misfits ‹_›; omega
      · rfl
    · rfl
  · rfl

theorem recorderMessage?_badAccepted (kind : r.kind = 0xD1) (bad : r.payload.length ≠ 2) : recorderMessage? r = none := by
  simp [recorderMessage?, kind, bad]

theorem recorderMessage?_badSpoiled (kind : r.kind = 0xD2)
    (bad : r.payload.length ≠ 3 ∨ nat8 r.payload 2 = 0 ∨ 4 < nat8 r.payload 2) : recorderMessage? r = none := by
  unfold recorderMessage?
  simp only [kind, beq_iff_eq]
  split
  · show (if r.payload.length = 3 then _ else none) = none
    split
    · rw [spoilReason?_none (bad.resolve_left (not_not_intro ‹_›))]; rfl
    · rfl
  · rfl

theorem recorderMessage?_badRestarted (kind : r.kind = 0xD3) (bad : r.payload ≠ []) : recorderMessage? r = none := by
  simp [recorderMessage?, kind, bad]

theorem recorderMessage?_unknown (outside : r.kind.toNat < 0xD0 ∨ 0xD3 < r.kind.toNat) : recorderMessage? r = none := by
  unfold recorderMessage?
  split
  · split
    case h_5 => rfl
    all_goals omega
  · rfl

theorem exec_recorderMessageDropped_none (dropped : recorderMessage? r = none) (s : State) :
    exec (.recorderMessageDropped r) s = .next (fresh s) := by
  rw [exec_recorderMessageDropped, dropped]
  rfl

end Dropped

/-- Settles O52: a message that answers no card is told by `lateNotice`, an acceptance may withdraw the pending retry, and a
record that fails a test of its kind carries no message. -/
theorem recorderRecordsNotTaken : Obligations.RecorderRecordsNotTaken := by
  refine ⟨fun s echo late => ⟨fun stands => ?stands, fun k withdraws present => ?withdraws, fun reason => ?spoiled⟩,
    ?dropped⟩
  case stands =>
    obtain ⟨kind, setNo, detail⟩ := lateNotice_carries (fresh s) 0xD1 echo.toNat
    have noticed := lateAccepted_noticed (s := fresh s) stands
    exact ⟨_, _, exec_cardAccepted_late late, noticed ▸ finish_settle_setsOff _, kind, setNo, detail,
      fun unmatched => lateNotice_source (s := fresh s) unmatched 0xD1⟩
  case withdraws =>
    obtain ⟨kind, _, detail⟩ := lateNotice_carries (fresh s) 0xD1 echo.toNat
    have withdrawn := lateAccepted_withdraws (s := fresh s) withdraws present
    obtain ⟨cli, retry, fli⟩ := withdrawRetry_clears k (raiseNotice (lateNotice (fresh s) 0xD1 echo.toNat) (fresh s))
    rw [raiseNotice_cli] at cli
    refine ⟨_, _, exec_cardAccepted_late late, withdrawn ▸ finish_settle_setsOff _, cli, retry,
      fun room => ⟨_, ?_, kind, detail⟩⟩
    rw [fli]
    exact (raisesOnly_raiseNotice _ (fresh s)).notices room
  case spoiled =>
    obtain ⟨kind, setNo, detail⟩ := lateNotice_carries (fresh s) 0xD2 echo.toNat
    exact ⟨_, _, exec_cardSpoiled_late late reason, finish_settle_setsOff _, kind, setNo, detail,
      fun unmatched => lateNotice_source (s := fresh s) unmatched 0xD2⟩
  case dropped =>
    rintro r s (check | ⟨kind, bad⟩ | ⟨kind, bad⟩ | ⟨kind, bad⟩ | ⟨kind, bad⟩ | unknown)
    · exact exec_recorderMessageDropped_none (recorderMessage?_badCheck check) s
    · exact exec_recorderMessageDropped_none (recorderMessage?_badState kind bad) s
    · exact exec_recorderMessageDropped_none (recorderMessage?_badAccepted kind bad) s
    · exact exec_recorderMessageDropped_none (recorderMessage?_badSpoiled kind bad) s
    · exact exec_recorderMessageDropped_none (recorderMessage?_badRestarted kind bad) s
    · exact exec_recorderMessageDropped_none (recorderMessage?_unknown unknown) s

/-! ### RECORDER RESTARTED (R160) -/

section Restarted
variable {s : State} {c : Card}

theorem exec_recorderRestarted (s : State) :
    exec .recorderRestarted s = .next (finish (settle (takeRestarted (fresh s)))) := rfl

theorem takeRestarted_noCard (noCard : s.cli.card = none) : takeRestarted s =
    raiseNotice (plainNotice .recorderRestarted 0) { s with cli := { s.cli with ready := false } } := by
  unfold takeRestarted
  rw [noCard]
  rfl

/-- R160: RECORDER_RESTARTED names the source of the card in flight, but neither its key nor its sheet. -/
def restartNotice (s : State) (c : Card) : Notice :=
  { cardNotice s .recorderRestarted c.kind c.tray with key := none, sheet := none }

/-- R160: the part once the restart has been told. -/
def restartTold (c : Card) (s : State) : State :=
  raiseNotice (restartNotice s c) { s with cli := { s.cli with ready := false } }

theorem takeRestarted_card (card : s.cli.card = some c) :
    takeRestarted s = endAttempt c (failedVerdict s c .restarted) (restartTold c s) := by
  unfold takeRestarted
  rw [card]
  rfl

theorem restartTold_cli : (restartTold c s).cli = { s.cli with ready := false } := raiseNotice_cli ..

theorem restartTold_cardOut : (restartTold c s).cardOut = s.cardOut := raiseNotice_cardOut ..

theorem restartTold_notices (room : s.fli.notices.length < 32) :
    (restartTold c s).fli.notices = s.fli.notices ++ [restartNotice s c] :=
  (raisesOnly_raiseNotice (restartNotice s c) { s with cli := { s.cli with ready := false } }).notices room

end Restarted

/-- Settles O55: the attempt ends after RECORDER_RESTARTED, and the verdict decides between a retry and REJECTED. -/
theorem recorderRestartedFails : Obligations.RecorderRestartedFails := by
  refine fun s => ⟨fun noCard => ?none, fun c card => ?card⟩
  case none => exact completes_setsOff (exec_recorderRestarted s) (takeRestarted_noCard (s := fresh s) noCard)
  case card =>
    have ended := attemptEnded c (failedVerdict (fresh s) c .restarted) (restartTold c (fresh s))
    have completes := exec_recorderRestarted s
    rw [takeRestarted_card (s := fresh s) card] at completes
    have told := restartTold_cli (s := fresh s) (c := c)
    refine ⟨_, _, completes, finish_settle_setsOff _, ended.cardOut.trans restartTold_cardOut,
      (congrArg Cli.ready ended.cli).trans (congrArg Cli.ready told), congrArg Cli.card ended.cli,
      congrArg Cli.timer ended.cli, fun below => ?retry, fun beyond => ?rejected⟩
    case retry =>
      have verdict : failedVerdict (fresh s) c .restarted = .retry .restarted := if_pos (Nat.lt_succ_of_le below)
      rw [verdict] at ended ⊢
      exact ⟨congrArg Cli.failed ended.cli, congrArg Cs.retry ended.cs,
        fun room => ⟨_, (congrArg Fli.notices ended.fli).trans (restartTold_notices room), rfl, rfl⟩⟩
    case rejected =>
      have verdict : failedVerdict (fresh s) c .restarted = .rejected .restarted :=
        if_neg (Nat.not_lt.2 (Nat.succ_le_of_lt beyond))
      rw [verdict] at ended ⊢
      have tray : (restartTold c (fresh s)).cli.nextTray = s.cli.nextTray := by rw [told]; rfl
      refine ⟨(congrArg Cli.nextTray ended.cli).trans (congrArg nextNumber tray), fun room => ⟨restartNotice (fresh s) c,
          cardNotice (restartTold c (fresh s)) .cardRejected c.kind (codedTray Cause.restarted.code c.tray),
          ?_, rfl, rfl, rfl, rfl⟩⟩
      have first := restartTold_notices (s := fresh s) (c := c) (Nat.lt_succ_of_lt room)
      have second : (restartTold c (fresh s)).fli.notices.length < 32 := by
        rw [first, List.length_append]
        exact Nat.succ_lt_succ room
      rw [ended.fli, rejected_notices second, first, List.append_assoc]
      rfl

end Sys2Proof.Machine
end

section
/-! SUPPORT. The CLI under the operations of the other blocks: sets, targets, filing, the intake's work and the records at
the head leave it as it is (R55 to R80, R113 to R130). -/

namespace Sys2Proof.Machine

-- Checked one after another, as the tests are, to hold the memory and the threads down.
set_option Elab.async false

/-! ### The SAU and the Card Queue leave the CLI (R113 to R130) -/

section SetsCli
variable (s : State)

@[simp] theorem closeSet_cli (n : Nat) (short : Bool) : (closeSet n short s).cli = s.cli := by
  unfold closeSet
  extract_lets
  split <;> rfl

@[simp] theorem placeItem_cli (x : BacklogItem) : (placeItem x s).cli = s.cli := by
  cases x with
  | set n | group => rfl
  | spill n opening =>
    show (placeSpill n opening s).cli = s.cli
    unfold placeSpill
    extract_lets
    split <;> rfl
  | marker =>
    show (placeMarker s).cli = s.cli
    unfold placeMarker
    extract_lets
    split <;> rfl

@[simp] theorem placeHead_cli : (placeHead s).cli = s.cli := by
  unfold placeHead
  split
  · rfl
  · exact placeItem_cli ..

theorem serveBacklog_cli (n : Nat) (s : State) : (serveBacklog n s).cli = s.cli := by
  induction n generalizing s with
  | zero => rfl
  | succ n ih =>
    unfold serveBacklog
    split
    · rw [ih, placeHead_cli]
    · rfl

@[simp] theorem drainBacklog_cli : (drainBacklog s).cli = s.cli := serveBacklog_cli ..

@[simp] theorem endSet_cli (n roll ordinal : Nat) : (endSet n roll ordinal s).cli = s.cli := by
  obtain ⟨r, items, _, ⟨_, e⟩ | ⟨x, _, _, e⟩⟩ := endSet_cases n roll ordinal s <;> rw [e]
  · rfl
  · exact raiseNotice_cli ..

@[simp] theorem endBatch_cli (x : Target) : (endBatch x s).cli = s.cli := by
  obtain ⟨sets, items, again, _, ⟨_, e⟩ | ⟨n, x, _, _, _, e⟩⟩ := endBatch_cases x s <;> rw [e]
  exact raiseNotice_cli ..

@[simp] theorem forceOut_cli (n roll ordinal detail : Nat) : (forceOut n roll ordinal detail s).cli = s.cli := by
  unfold forceOut
  rw [raiseNotice_cli, closeSet_cli]

@[simp] theorem openRecord_cli (n : Nat) : (openRecord n s).cli = s.cli := rfl

@[simp] theorem openOrForce_cli (x : Target) : (openOrForce x s).cli = s.cli := by
  unfold openOrForce
  split
  · rfl
  · split
    · rfl
    · extract_lets
      split <;> simp +zetaDelta

@[simp] theorem targetOp_cli (x : Target) : (targetOp x s).cli = s.cli := by
  unfold targetOp
  extract_lets
  split
  · unfold startTargetOp
    split <;> simp +zetaDelta
  · unfold endTargetOp
    split <;> simp +zetaDelta
  · simp +zetaDelta [batchEndOp]

@[simp] theorem askRelease_cli (f : FrameCtx) : (askRelease f s).cli = s.cli := by
  unfold askRelease pressureRelease
  split
  · exact forceOut_cli ..
  · split
    · rfl
    · unfold requestSpill
      split
      · rfl
      · extract_lets
        split <;> rfl

@[simp] theorem releaseReservation_cli : (releaseReservation s).cli = s.cli := by
  obtain ⟨again, queue, e⟩ := releaseReservation_frame s
  rw [e]

@[simp] theorem fileFrame_cli (f : FrameCtx) (slot : Nat) : (fileFrame f slot s).cli = s.cli := by
  unfold fileFrame
  split
  · unfold fileIntoSet
    extract_lets
    split
    · exact closeSet_cli ..
    · rfl
  · rfl
  · unfold fileIntoGroup
    extract_lets
    split <;> rfl
  · rfl

end SetsCli

/-! ### The intake leaves the CLI (R55 to R80) -/

section IntakeCli
variable (s : State)

@[simp] theorem evaluateHeader_cli (h : Header) (m : Option Matched) : (evaluateHeader h m s).cli = s.cli :=
  (evaluateHeader_raisesOnly h m s).cli

@[simp] theorem takeHeader_cli (h : Header) : (takeHeader h s).cli = s.cli := by
  have clamped (g : Geometry) (m : Option Matched) (u : State) : (noticeClamped g h m u).cli = u.cli := by
    unfold noticeClamped
    split
    · exact raiseNotice_cli ..
    · rfl
  have floor (m : Option Matched) (rf : Nat) (u : State) : (floorTest h m rf u).cli = u.cli := by
    unfold floorTest
    split
    · exact raiseNotice_cli ..
    · exact clamped _ m u
  unfold takeHeader
  split
  · exact raiseNotice_cli ..
  · split
    · rfl
    · exact (raiseNotice_cli ..).trans (evaluateHeader_cli ..)
    · exact (floor ..).trans (evaluateHeader_cli ..)
    · exact (floor ..).trans (evaluateHeader_cli ..)

theorem workStep_cli {f : FrameCtx} {g : Geometry} {slot : Nat} {s t : State} (e : workStep f g slot s = some t) :
    t.cli = s.cli := by
  have placed (f : FrameCtx) (inks : List Byte) (u : State) : (placeLine f g slot inks u).cli = u.cli := by
    unfold placeLine
    split <;> rfl
  have filled : (fillLine f g slot s).cli = s.cli := placed ..
  unfold workStep at e
  split at e
  · cases e
  · rename_i n samples _
    have resampled : (resampleLine f g slot samples s).cli = s.cli := by
      unfold resampleLine
      split
      · exact filled
      · extract_lets
        split <;> exact placed ..
    split at e <;> cases e
    · exact filled
    · exact resampled
  · rename_i sent _
    have checked : (sentCheck f slot sent s).cli = s.cli := by
      unfold sentCheck
      split
      · split <;> rfl
      · rfl
    split at e <;> cases e
    · exact filled
    · exact checked
  · cases e
  · cases e; rfl

@[simp] theorem runWork_cli (n : Nat) (s : State) : (runWork n s).cli = s.cli := by
  induction n generalizing s with
  | zero => rfl
  | succ n ih =>
    unfold runWork
    split
    · split
      · rename_i step; rw [ih, workStep_cli step]
      · rfl
    · rfl

@[simp] theorem fileOpen_cli : (fileOpen s).cli = s.cli := by
  unfold fileOpen
  split
  · exact fileFrame_cli ..
  all_goals rfl

@[simp] theorem abortWith_cli (f : FrameCtx) (lost : Notice) : (abortWith f lost s).cli = s.cli :=
  (raiseNotice_cli ..).trans (releaseReservation_cli s)

@[simp] theorem intakeLinkLoss_cli : (intakeLinkLoss s).cli = s.cli := by
  unfold intakeLinkLoss
  split
  case h_4 | h_5 | h_6 => rfl
  all_goals exact abortWith_cli ..

@[simp] theorem purgeFrame_cli : (purgeFrame s).cli = s.cli := by
  unfold purgeFrame
  split
  case h_1 | h_2 => exact abortWith_cli ..
  all_goals rfl

@[simp] theorem againTarget_cli : (againTarget s).cli = s.cli := by
  unfold againTarget
  split
  · exact targetOp_cli ..
  all_goals rfl

end IntakeCli

/-! ### The FLI and the MU leave the CLI (R3, R87, R166 to R173) -/

section LinksCli
variable (s : State)

@[simp] theorem tableWriteOp_cli (tag kind : Byte) (position : Nat) (content : List Byte) :
    (tableWriteOp tag kind position content s).cli = s.cli := by
  unfold tableWriteOp
  split
  · rfl
  · split <;> rfl

@[simp] theorem releaseSet_cli (n : Nat) : (releaseSet n s).cli = s.cli := by
  unfold releaseSet
  split <;> simp

@[simp] theorem monitorSetupOp_cli (tag : Byte) (m : MonitorFields) : (monitorSetupOp tag m s).cli = s.cli := by
  have warned (on : Bool) (u : State) : (warnLate s.dm on u).cli = u.cli := by
    unfold warnLate
    split
    · split
      · exact raiseNotice_cli ..
      · rfl
    · rfl
  unfold monitorSetupOp
  split
  · rfl
  · exact warned ..

@[simp] theorem takeRecord_cli (r : LinkRecord) : (takeRecord r s).cli = s.cli := by
  have marked (k : FilmKind) (u : State) : (markLoss k u).cli = u.cli := by
    unfold markLoss
    split <;> rfl
  unfold takeRecord
  split
  · unfold takeCheckError
    split
    · exact (marked ..).trans (raiseNotice_cli ..)
    · exact raiseNotice_cli ..
  · split
    · rfl
    · unfold overrun
      split <;> rfl
  · split <;> rfl

@[simp] theorem endSending_cli : (endSending s).cli = s.cli := by
  unfold endSending
  split
  · rfl
  all_goals split <;> rfl

end LinksCli

end Sys2Proof.Machine
end

section
/-! SUPPORT. The response timer and the card in flight under every operation (R157): the relation `KeepsTimer` between the
states before and after, the sending and the end of a card, and every command. The statement O10. -/

namespace Sys2Proof.Machine

-- Checked one after another, as the tests are, to hold the memory and the threads down.
set_option Elab.async false

variable {s t : State}

/-! ### The relation -/

/-- The response timer runs as R157 has it in `t` if it does in `s`. -/
structure KeepsTimer (s t : State) : Prop where
  keeps : TimerAwaits s → TimerAwaits t

theorem KeepsTimer.trans {s t u : State} (h : KeepsTimer s t) (g : KeepsTimer t u) : KeepsTimer s u :=
  ⟨g.keeps ∘ h.keeps⟩

theorem KeepsTimer.of_awaits (h : TimerAwaits t) : KeepsTimer s t := ⟨fun _ => h⟩

/-- The state of the card in flight says whether one is AWAITING. -/
theorem cardAwaits_eq (cli : Cli) : cardAwaits cli = decide (cli.card.map Card.state = some .awaiting) := by
  unfold cardAwaits
  cases cli.card with
  | none => rfl
  | some c => simp [Bool.beq_eq_decide_eq]

/-- The timer and the state of the card in flight alone decide. -/
theorem KeepsTimer.congr (timer : t.cli.timer = s.cli.timer := by rfl)
    (card : t.cli.card.map Card.state = s.cli.card.map Card.state := by rfl) : KeepsTimer s t := by
  constructor
  unfold TimerAwaits
  rw [timer, cardAwaits_eq, cardAwaits_eq, card]
  exact id

/-- So an operation that leaves the CLI as it is keeps it. -/
theorem KeepsTimer.of_cli (same : t.cli = s.cli) : KeepsTimer s t := .congr (by rw [same]) (by rw [same])

/-! ### The sending of a card (R153 to R158) -/

/-- R156, R157: with CARD CLOSE the card is AWAITING and the timer starts, whatever stood before. -/
theorem closeCard_timerAwaits (c : Card) (s : State) : TimerAwaits (closeCard c s) := rfl

theorem timer_nextStep (c : Card) (slot : Nat) (s : State) : KeepsTimer s (nextStep c slot s) := by
  unfold nextStep
  split
  · exact .of_awaits (closeCard_timerAwaits c s)
  · split <;> exact .congr

theorem timer_pump (s : State) : KeepsTimer s (pump s) := by
  unfold pump
  split
  · exact .congr
  · rename_i c card
    split
    · exact .congr
    · exact .congr
    · split
      · unfold pumpChip
        split
        · rename_i slot _ _ row _
          have sent : KeepsTimer s (sendLine c slot row s) := .congr rfl (congrArg (Option.map Card.state) card).symm
          exact sent.trans (timer_nextStep ..)
        · exact timer_nextStep ..
      all_goals exact .of_awaits (closeCard_timerAwaits c s)

/-- R154: a card is opened with no card before it, so with the timer stopped. -/
theorem timer_openCard (k : CardKind) (attempt : Nat) (noCard : s.cli.card = none) :
    KeepsTimer s (openCard k attempt s) := by
  unfold openCard
  refine .trans ⟨fun before => ?_⟩ (timer_pump _)
  unfold TimerAwaits at before ⊢
  rw [cardAwaits_eq, noCard] at before
  exact before

/-! ### The end of an attempt, and the recorder's messages (R157 to R161) -/

/-- R159 steps 1 and 3: no card is in flight and the timer is stopped. -/
theorem endAttempt_timerAwaits (c : Card) (v : Verdict) (s : State) : TimerAwaits (endAttempt c v s) := by
  unfold TimerAwaits
  rw [(attemptEnded c v s).cli]
  rfl

theorem timer_takeAccepted (echo : Nat) (s : State) : KeepsTimer s (takeAccepted echo s) := by
  have noticed : KeepsTimer s (raiseNotice (lateNotice s 0xD1 echo) s) := .of_cli (raiseNotice_cli ..)
  have withdrawn (k : CardKind) (u : State) : KeepsTimer u (withdrawRetry k u) := by
    obtain ⟨cli, _⟩ := withdrawRetry_clears k u
    exact .congr (by rw [cli]) (by rw [cli])
  unfold takeAccepted
  split
  · exact .of_awaits (endAttempt_timerAwaits ..)
  · unfold lateAccepted
    extract_lets
    split
    · split
      · exact noticed.trans (withdrawn ..)
      · exact noticed
    · exact noticed

theorem timer_takeSpoiled (echo : Nat) (reason : SpoilReason) (s : State) : KeepsTimer s (takeSpoiled echo reason s) := by
  unfold takeSpoiled
  split
  · exact .of_awaits (endAttempt_timerAwaits ..)
  · exact .of_cli (raiseNotice_cli ..)

/-- R158: a pause neither takes a card out of AWAITING nor brings one there. -/
theorem pauseCard_awaits (ready : Bool) (c : Card) : (pauseCard ready c).state = .awaiting ↔ c.state = .awaiting := by
  cases state : c.state with
  | awaiting => rw [pauseCard_awaiting state, state]
  | sending | paused => cases ready <;> simp [pauseCard, state]

theorem timer_takeRecorderState (ready : Bool) (s : State) : KeepsTimer s (takeRecorderState ready s) := by
  by_cases same : s.cli.ready = ready
  · rw [takeRecorderState_same same]
    exact .congr
  · rw [takeRecorderState_changed same]
    refine KeepsTimer.trans ?_ (timer_pump _)
    constructor
    unfold TimerAwaits
    rw [cardAwaits_eq, cardAwaits_eq]
    cases s.cli.card with
    | none => exact id
    | some c => simp only [Option.map_some, Option.some.injEq, pauseCard_awaits]; exact id

theorem timer_takeRestarted (s : State) : KeepsTimer s (takeRestarted s) := by
  cases card : s.cli.card with
  | none =>
    rw [takeRestarted_noCard card]
    exact .congr (by rw [raiseNotice_cli]) (by rw [raiseNotice_cli])
  | some c =>
    rw [takeRestarted_card card]
    exact .of_awaits (endAttempt_timerAwaits ..)

theorem timer_takeMessage (m : RecorderMessage) (s : State) : KeepsTimer s (takeMessage m s) := by
  cases m with
  | state ready => exact timer_takeRecorderState ready s
  | accepted echo => exact timer_takeAccepted echo s
  | spoiled echo reason => exact timer_takeSpoiled echo reason s
  | restarted => exact timer_takeRestarted s

/-! ### What follows from a change (R138, R142, R143) -/

/-- R163: only the batch number and the tray sequence change. -/
theorem timer_removeMarker (s : State) : KeepsTimer s (removeMarker s) := by
  have cli : (removeMarker s).cli = { s.cli with batch := nextNumber s.cli.batch, nextTray := 1 } := raiseNotice_cli ..
  exact .congr (by rw [cli]) (by rw [cli])

/-- R138: a card is handed over only where none is in flight. -/
theorem boundaryCard_some {c : State × CardKind × Nat} (e : boundaryCard s = some c) :
    s.cli.card = none ∧ chooseCard s = some c := by
  unfold boundaryCard at e
  split at e
  · rename_i atBoundary
    simp only [boundary, Bool.and_eq_true, Option.isNone_iff_eq_none] at atBoundary
    obtain ⟨⟨noCard, _⟩, _⟩ := atBoundary
    exact ⟨noCard, e⟩
  · cases e

theorem timer_settleCards (e : settleCards s = some t) : KeepsTimer s t := by
  unfold settleCards at e
  split at e
  · cases e
    unfold markerOrRelease
    extract_lets s1
    have counted : KeepsTimer s s1 := .congr
    split
    · exact counted.trans (timer_removeMarker _)
    · exact counted.trans (.of_cli (askRelease_cli ..))
  · cases e; exact timer_removeMarker s
  · cases e; exact .of_cli (askRelease_cli ..)
  · rw [Option.map_eq_some_iff] at e
    obtain ⟨⟨u, k, a⟩, handed, rfl⟩ := e
    obtain ⟨noCard, chosen⟩ := boundaryCard_some handed
    obtain ⟨cs, rfl⟩ := chooseCard_cs chosen
    exact .trans .congr (timer_openCard (s := { s with cs := cs }) k a noCard)

theorem timer_settleStep (e : settleStep s = some t) : KeepsTimer s t := by
  rcases settleStep_cases e with ⟨_, _, rfl⟩ | ⟨f, _, rfl⟩ | ⟨f, n, _, rfl⟩ | cards
  · exact .of_cli (placeHead_cli s)
  · exact .congr
  · exact .congr
  · exact timer_settleCards cards

theorem timer_settle (s : State) : KeepsTimer s (settle s) :=
  ⟨settle_keeps (P := TimerAwaits) (fun _ _ h e => (timer_settleStep e).keeps h) fun _ h => h⟩

theorem timer_beginWake (s : State) : KeepsTimer s (beginWake s) :=
  KeepsTimer.trans (t := { s with sc := { s.sc with mode := .waking } }) .congr (timer_settle _)

theorem timer_finish (s : State) : KeepsTimer s (finish s) := by
  have met : KeepsTimer s (meetHeader s) := by
    unfold meetHeader
    split
    · exact timer_beginWake s
    · exact .congr
  have told := (channel_frame (meetHeader s)).1
  refine met.trans (.of_cli ?_)
  unfold finish
  rw [told]

/-! ### The intake (R55 to R80) -/

/-- An operation that leaves the CLI, and what it sets off. -/
theorem timer_settle_of {u : State} (same : u.cli = s.cli) : KeepsTimer s (settle u) :=
  (KeepsTimer.of_cli same).trans (timer_settle u)

theorem timer_takeCause (s : State) : KeepsTimer s (takeCause s) := by
  unfold takeCause
  split
  · exact timer_settle_of (takeHeader_cli ..)
  · exact timer_settle_of (targetOp_cli ..)
  all_goals exact .congr

theorem timer_advance (s : State) : KeepsTimer s (advance s) := by
  have closed (implicit : Bool) (u : State) : KeepsTimer u (closeFrame implicit u) := by
    have filed : KeepsTimer u (settle (fileOpen u)) := timer_settle_of (fileOpen_cli u)
    unfold closeFrame
    extract_lets
    split
    · exact filed.trans (timer_takeCause _)
    · exact filed
  refine (KeepsTimer.of_cli (runWork_cli workFuel s)).trans ?_
  unfold advance
  extract_lets
  split
  · exact closed ..
  · exact .congr

/-- What leaves the CLI before the Resampler goes on keeps the timer, and so does that. -/
theorem timer_advance_of {u : State} (same : u.cli = s.cli) : KeepsTimer s (advance u) :=
  (KeepsTimer.of_cli same).trans (timer_advance u)

theorem timer_implicitEnd (f : FrameCtx) (s : State) : KeepsTimer s (implicitEnd f s) :=
  timer_advance_of (raiseNotice_cli ..)

theorem timer_takeFrameHeader (h : Header) (s : State) : KeepsTimer s (takeFrameHeader h s) := by
  unfold takeFrameHeader
  split
  · exact timer_implicitEnd ..
  all_goals exact timer_settle_of (takeHeader_cli ..)

theorem timer_takeLineRecord (n : Nat) (samples : List Byte) (s : State) :
    KeepsTimer s (takeLineRecord n samples s) := by
  unfold takeLineRecord
  split
  · unfold takeLine
    extract_lets
    split
    · exact timer_advance_of rfl
    · exact .congr
  all_goals exact .congr

theorem timer_takeFrameEndRecord (sent : Nat) (s : State) : KeepsTimer s (takeFrameEndRecord sent s) := by
  unfold takeFrameEndRecord
  split
  · exact timer_advance_of rfl
  all_goals exact .congr

theorem timer_takeTarget (x : Target) (s : State) : KeepsTimer s (takeTarget x s) := by
  unfold takeTarget
  split
  · exact timer_implicitEnd ..
  all_goals exact timer_settle_of (targetOp_cli ..)

theorem timer_takeLoss (k : FilmKind) (s : State) : KeepsTimer s (takeLoss k s) := by
  unfold takeLoss
  split
  · split
    · exact timer_implicitEnd ..
    all_goals exact .congr
  all_goals exact .congr

/-! ### Management records and the store's events (R87 to R112, R131, R132, R146, R155, R164, R165, R176) -/

theorem timer_setReleaseOp (tag : Byte) (n : Nat) (s : State) : KeepsTimer s (setReleaseOp tag n s) := by
  unfold setReleaseOp
  split
  · exact .congr
  · exact timer_settle_of (releaseSet_cli ..)

theorem timer_setDiscardOp (tag : Byte) (n : Nat) (s : State) : KeepsTimer s (setDiscardOp tag n s) := by
  unfold setDiscardOp
  split
  · exact .congr
  · extract_lets
    split
    case h_3 | h_4 => exact .congr
    all_goals exact timer_settle_of rfl

theorem timer_cardCancelOp (tag : Byte) (s : State) : KeepsTimer s (cardCancelOp tag s) := by
  unfold cardCancelOp
  split
  · exact .of_awaits ((timer_settle _).keeps (endAttempt_timerAwaits ..))
  · exact .congr

theorem timer_storeSetupOp (tag : Byte) (interval banks : Nat) (s : State) :
    KeepsTimer s (storeSetupOp tag interval banks s) := by
  unfold storeSetupOp
  split
  · exact .congr
  · exact timer_settle_of rfl

theorem timer_storeRetainOp (tag : Byte) (s : State) : KeepsTimer s (storeRetainOp tag s) := by
  unfold storeRetainOp
  split
  · split <;> exact .congr
  all_goals exact .congr

theorem timer_storeWakeOp (tag : Byte) (s : State) : KeepsTimer s (storeWakeOp tag s) := by
  unfold storeWakeOp
  split
  · exact KeepsTimer.trans .congr (timer_beginWake _)
  all_goals exact .congr

/-- R148: a purge takes away a pending retry, and no card is in flight. -/
theorem timer_storePurgeOp (tag : Byte) (s : State) : KeepsTimer s (storePurgeOp tag s) := by
  have purged (u : State) : KeepsTimer u (purgeAll u) := by
    have cli := purgeRetry_eq u.cs u.cli
    exact .congr (by rw [purgeAll_cli, cli]) (by rw [purgeAll_cli, cli])
  unfold storePurgeOp
  split
  · exact .congr
  · refine ((KeepsTimer.of_cli (purgeFrame_cli s)).trans (purged _)).trans (timer_settle_of ?_)
    rw [purgeEnd_cli, againTarget_cli]

theorem timer_recorderSetupOp (tag : Byte) (pr timeout : Nat) (s : State) :
    KeepsTimer s (recorderSetupOp tag pr timeout s) := by
  unfold recorderSetupOp
  split <;> exact .congr

theorem timer_writeServed (w : WriteBurst) (s : State) : KeepsTimer s (writeServed w s) := by
  unfold writeServed
  extract_lets
  split
  · exact timer_settle_of rfl
  · exact timer_advance_of rfl

/-- R155: a row that is buffered leaves its card in the state it is in. -/
theorem timer_readServed (r : ReadBurst) (s : State) : KeepsTimer s (readServed r s) := by
  have buffered (row : List Byte) (sc : Sc) : KeepsTimer s { s with sc := sc, cli := bufferRow r row s.cli } := by
    unfold bufferRow
    split
    · exact .congr
    · exact .congr rfl (Option.map_map ..)
  exact ((buffered ..).trans (timer_pump _)).trans .congr

theorem timer_endWake (s : State) : KeepsTimer s (endWake s) := by
  unfold endWake
  extract_lets
  split
  · exact timer_settle_of (takeHeader_cli ..)
  · exact .congr

/-! ### Every command -/

/-- An event whose condition does not hold has no effect (log entry 1). -/
theorem timer_event {p : Prop} [Decidable p] {u : State} (hu : KeepsTimer s u)
    (e : (if p then .next (finish u) else .next (fresh s) : Host.Outcome State Fault Refusal) = .next t) :
    KeepsTimer s t := by
  split at e <;> cases e
  · exact hu.trans (timer_finish u)
  · exact .congr

/-- Nor has a command when what it acts on does not stand there. -/
theorem timer_actOn {α : Type} {c : Instr} {head : Option α} {op : α → State} (e : exec c s = .next t)
    (acts : exec c s = actOn head op s) (hop : ∀ a, KeepsTimer s (op a)) : KeepsTimer s t := by
  rw [acts] at e
  cases head with
  | none => cases e; exact .congr
  | some a => cases e; exact (hop a).trans (timer_finish _)

/-- Every command keeps the response timer running exactly while the card in flight is AWAITING. -/
theorem exec_timer {c : Instr} (e : exec c s = .next t) : KeepsTimer s t := by
  have begun {u : State} (h : KeepsTimer (fresh s) u) : KeepsTimer s u := KeepsTimer.trans .congr h
  have head {u : State} (h : KeepsTimer (taken s) u) : KeepsTimer s u := KeepsTimer.trans .congr h
  have settled {u : State} (h : KeepsTimer (fresh s) u) : KeepsTimer s (settle u) := (begun h).trans (timer_settle u)
  cases c with
  | powerOn => cases e; exact .of_awaits rfl
  | loadingEnd words => exact timer_event .congr e
  | linkUp => exact timer_event .congr e
  | linkLoss =>
    have dropped : (intakeLinkLoss (dropLink (fresh s))).cli = s.cli := (intakeLinkLoss_cli _).trans (raiseNotice_cli ..)
    exact timer_event (timer_settle_of dropped) e
  | recordReceived r => exact timer_event (.of_cli (takeRecord_cli (fresh s) r)) e
  | frameHeader =>
    simp only [exec, execFrameHeader] at e
    split at e
    · split at e <;> cases e
      · exact (begun (timer_takeFrameHeader ..)).trans (timer_finish _)
      · exact begun (timer_finish _)
    · cases e; exact .congr
  | line => exact timer_actOn e (exec_line s) fun _ => head (timer_takeLineRecord ..)
  | frameEnd => exact timer_actOn e (exec_frameEnd s) fun _ => head (timer_takeFrameEndRecord ..)
  | start => exact timer_actOn e (exec_start s) fun _ => begun (timer_takeTarget ..)
  | endTarget => exact timer_actOn e (exec_endTarget s) fun _ => begun (timer_takeTarget ..)
  | batchEnd => exact timer_actOn e (exec_batchEnd s) fun _ => begun (timer_takeTarget ..)
  | lossIndication => exact timer_actOn e (exec_lossIndication s) fun _ => begun (timer_takeLoss ..)
  | tableWrite => exact timer_actOn e (exec_tableWrite s) fun _ => head (.of_cli (tableWriteOp_cli ..))
  | tableFence => exact timer_actOn e (exec_tableFence s) fun _ => .congr
  | tableRead => exact timer_actOn e (exec_tableRead s) fun _ => .congr
  | tableDescribe => exact timer_actOn e (exec_tableDescribe s) fun _ => .congr
  | setRelease => exact timer_actOn e (exec_setRelease s) fun _ => head (timer_setReleaseOp ..)
  | setDiscard => exact timer_actOn e (exec_setDiscard s) fun _ => head (timer_setDiscardOp ..)
  | cardCancel => exact timer_actOn e (exec_cardCancel s) fun _ => head (timer_cardCancelOp ..)
  | storeSetup => exact timer_actOn e (exec_storeSetup s) fun _ => head (timer_storeSetupOp ..)
  | storeRetain => exact timer_actOn e (exec_storeRetain s) fun _ => head (timer_storeRetainOp ..)
  | storeWake => exact timer_actOn e (exec_storeWake s) fun _ => head (timer_storeWakeOp ..)
  | storePurge => exact timer_actOn e (exec_storePurge s) fun _ => head (timer_storePurgeOp ..)
  | storePurgeDone => exact timer_actOn e (exec_storePurgeDone s) fun _ => timer_settle_of rfl
  | monitorSetup => exact timer_actOn e (exec_monitorSetup s) fun _ => head (.of_cli (monitorSetupOp_cli ..))
  | recorderSetup => exact timer_actOn e (exec_recorderSetup s) fun _ => head (timer_recorderSetupOp ..)
  | statusRead => exact timer_actOn e (exec_statusRead s) fun _ => .congr
  | statusClear => exact timer_actOn e (exec_statusClear s) fun _ => .congr
  | linkReset => exact timer_actOn e (exec_linkReset s) fun _ => .of_awaits rfl
  | linkResetComplete => exact timer_actOn e (exec_linkResetComplete s) fun _ => .congr
  | unknownKind => exact timer_actOn e (exec_unknownKind s) fun _ => .congr
  | writeBurstServed =>
    simp only [exec, execWriteBurstServed] at e
    split at e
    · split at e <;> cases e
      exact (begun (timer_writeServed ..)).trans (timer_finish _)
    · cases e; exact .congr
  | readBurstServed =>
    simp only [exec, execReadBurstServed] at e
    split at e
    · split at e <;> cases e
      exact (begun (timer_readServed ..)).trans (timer_finish _)
    · cases e; exact .congr
  | refreshDue => cases e; exact .congr
  | refreshEnd => cases e; exact .congr
  | wakeEnd => exact timer_event (begun (timer_endWake _)) e
  | responseTimerExpiry =>
    exact timer_actOn e (exec_responseTimerExpiry s) fun _ => settled (.of_awaits (endAttempt_timerAwaits ..))
  | recorderState ready => cases e; exact (settled (timer_takeRecorderState ..)).trans (timer_finish _)
  | cardAccepted echo => cases e; exact (settled (timer_takeAccepted ..)).trans (timer_finish _)
  | cardSpoiled echo reason => cases e; exact (settled (timer_takeSpoiled ..)).trans (timer_finish _)
  | recorderRestarted => cases e; exact (settled (timer_takeRestarted _)).trans (timer_finish _)
  | recorderMessageDropped r =>
    exact timer_actOn e (exec_recorderMessageDropped s r) fun _ => settled (timer_takeMessage ..)
  | returnSendEnd => exact timer_event (.of_cli (endSending_cli (fresh s))) e

/-- Settles O10: every command keeps the timer with the card in flight (`exec_timer`). -/
theorem stepKeepsTimerAwaits : Obligations.StepKeepsTimerAwaits := by
  intro s t before e
  unfold step at e
  split at e
  · cases e; exact before
  · rename_i c cs _
    exact (exec_timer (s := { s with pending := cs }) e).keeps before

end Sys2Proof.Machine
end

section
/-! SUPPORT. Power-on and start-up loading: the values POWER_ON leaves, and how each word of the configuration memory is judged
(R32, R177, R178). The statements O2 and O13. -/

namespace Sys2Proof.Machine

-- Checked one after another, as the tests are, to hold the memory and the threads down.
set_option Elab.async false

/-! ### Power-on (R177) -/

section PowerOn
variable {n i : Nat}

/-- R32: a position of TONE counts through the eight tables, 256 entries each. -/
theorem toneAt_entry (mu : Mu) (entry : i < 256) : toneAt mu (256 * n + i) = inkAt mu.tones n i := by
  unfold toneAt inkAt
  rw [show (256 * n + i) / 256 = n by omega, show (256 * n + i) % 256 = i by omega]

theorem identityTone_entry (entry : i < 256) : identityTone.getD i 0 = byteOf i := by
  rw [identityTone, getD_inside (by simpa using entry), List.getElem_map, List.getElem_range]
  rfl

theorem inverseTone_entry (entry : i < 256) : inverseTone.getD i 0 = byteOf (255 - i) := by
  rw [inverseTone, getD_inside (by simpa using entry), List.getElem_map, List.getElem_range]
  rfl

/-- R32: at power-on table 1 is the inverse, the seven others the identity. -/
theorem reset_tones (table : n < 8) (entry : i < 256) :
    inkAt State.reset.mu.tones n i = if n = 1 then byteOf (255 - i) else byteOf i := by
  have tones : State.reset.mu.tones = identityTone :: inverseTone :: List.replicate 6 identityTone := rfl
  rw [tones]
  match n with
  | 0 => exact identityTone_entry entry
  | 1 => exact inverseTone_entry entry
  | n + 2 =>
    have later : (List.replicate 6 identityTone).getD n [] = identityTone := by
      rw [getD_inside (by rw [List.length_replicate]; omega), List.getElem_replicate]
    rw [if_neg (by omega)]
    exact (congrArg (·.getD i 0) later).trans (identityTone_entry entry)

theorem reset_classAt (n : Nat) : classAt State.reset.mu n = .powerOn := by
  rcases getD_mem_or_default State.reset.mu.classes n .powerOn with held | outside
  · exact List.eq_of_mem_replicate held
  · exact outside

end PowerOn

/-- Settles O2: every value is one of the reset state's own; the classes and tones by `reset_classAt` and `reset_tones`. -/
theorem powerOnState : Obligations.PowerOnState := by
  intro s
  refine ⟨{ State.reset with pending := s.pending }, rfl, rfl, rfl, rfl, rfl, rfl, rfl, rfl, rfl,
    fun n _ => reset_classAt n, fun n i table entry => (toneAt_entry _ entry).trans (reset_tones table entry), ?_⟩
  and_intros
  all_goals rfl

/-! ### The words of the configuration memory (R178) -/

section Loading
variable {lo hi default : Nat}

theorem usableWord_iff (w : Word16) : usableWord w = true ↔ w.toNat ≠ 0 ∧ w.toNat ≠ 65535 := by
  simp [usableWord, ← BitVec.toNat_inj]

/-- R178: the two words that are never usable lie outside every range, so the range alone decides. -/
theorem loadedOr_eq (low : 0 < lo) (high : hi < 65535) (w : Word16) :
    loadedOr lo hi default w = if lo ≤ w.toNat ∧ w.toNat ≤ hi then w.toNat else default := by
  unfold loadedOr
  refine ite_congr (propext ?_) (fun _ => rfl) (fun _ => rfl)
  rw [Bool.and_eq_true, usableWord_iff, inRange_iff]
  omega

/-- R178: an identity word that is not usable is 0, as the word of all zeros is. -/
theorem identityWord_eq (w : Word16) : identityWord w = if w = 0xFFFF then 0 else w := by
  unfold identityWord
  by_cases ones : w = 0xFFFF
  · rw [ones]; rfl
  · rw [if_neg ones]
    by_cases zero : w = 0
    · rw [zero]; rfl
    · exact if_pos (Bool.and_eq_true_iff.2 ⟨bne_iff_ne.2 zero, bne_iff_ne.2 ones⟩)

/-- R178: three rising words up to 255, the first above 0, are each usable. -/
theorem usableTriple_iff (f e l : Word16) : usableTriple f e l = true
    ↔ 0 < f.toNat ∧ f.toNat < e.toNat ∧ e.toNat < l.toNat ∧ l.toNat ≤ 255 := by
  simp only [usableTriple, Bool.and_eq_true, usableWord_iff, decide_eq_true_eq]
  omega

theorem judged_thresholds (word : Nat → Word16) :
    ((ConfigItems.judged word).floor, (ConfigItems.judged word).enter, (ConfigItems.judged word).leave)
      = if 0 < (word 7).toNat ∧ (word 7).toNat < (word 8).toNat ∧ (word 8).toNat < (word 9).toNat ∧ (word 9).toNat ≤ 255
        then ((word 7).toNat, (word 8).toNat, (word 9).toNat) else (16, 48, 64) := by
  have rises := usableTriple_iff (word 7) (word 8) (word 9)
  unfold ConfigItems.judged
  cases usable : usableTriple (word 7) (word 8) (word 9) with
  | false => exact (if_neg fun rising => Bool.eq_false_iff.1 usable (rises.2 rising)).symm
  | true => exact (if_pos (rises.1 usable)).symm

/-- Table 10-5: the timeout word counts units of 10 ms. -/
theorem judged_timeout (word : Nat → Word16) : (ConfigItems.judged word).timeout
    = if 25 ≤ (word 5).toNat ∧ (word 5).toNat ≤ 800 then 10 * (word 5).toNat else 2000 := by
  show 10 * loadedOr 25 800 200 (word 5) = _
  rw [loadedOr_eq (by decide) (by decide)]
  split <;> rfl

theorem configItems_builtIn {words : List Word16} (bad : words.length < 16 ∨ words.getD 0 0 ≠ 0x3D62) :
    configItems words = .builtIn := if_neg fun ⟨long, marker⟩ => bad.elim (Nat.not_lt.2 long) (· marker)

theorem configItems_judged {words : List Word16} (long : 16 ≤ words.length) (marker : words.getD 0 0 = 0x3D62) :
    configItems words = .judged (fun i => words.getD i 0) := if_pos ⟨long, marker⟩

end Loading

/-- Settles O13: LOADING_END hands over `configItems words`, which is the built-in defaults or the items judged one by one. -/
theorem loadingEndHandsOver : Obligations.LoadingEndHandsOver := by
  intro words s loading
  have completes : exec (.loadingEnd words) s = .next (finish (handOver (configItems words) (fresh s))) := if_pos loading
  refine ⟨_, _, completes, finish_end _, rfl, rfl, rfl, rfl, rfl, rfl, fun bad => ?defaults, fun long marker => ?judged⟩
  case defaults =>
    rw [configItems_builtIn bad]
    exact ⟨Bool.or_true _, rfl, rfl, rfl, rfl, rfl, rfl, rfl, rfl, rfl, rfl⟩
  case judged =>
    rw [configItems_judged long marker]
    refine ⟨Bool.or_false _, ?_, ?_, ?_, ?_, ?_, ?_, ?_, ?_⟩
    case refine_1 | refine_2 | refine_3 => rintro w rfl; exact identityWord_eq _
    case refine_4 | refine_5 | refine_7 => rintro n rfl; exact loadedOr_eq (by decide) (by decide) _
    case refine_6 => rintro n rfl; exact judged_timeout (fun i => words.getD i 0)
    case refine_8 => rintro f e l rfl rfl rfl; exact judged_thresholds (fun i => words.getD i 0)

end Sys2Proof.Machine
end

section
/-! SUPPORT. The return channel and the records that arrive: what a command's end tells, the sending that ends, and the places of
the intake FIFO (R166 to R173, R180). The statements O14 and O16. -/

namespace Sys2Proof.Machine

-- Checked one after another, as the tests are, to hold the memory and the threads down.
set_option Elab.async false

/-! ### What a command's end tells (R169, R173) -/

section Channel
variable {u t : State}

theorem Told.returnOut (h : Told u t) :
    t.returnOut = u.returnOut ∨ t.returnOut = u.returnOut ++ [.symbol (holdState t)] := by
  by_cases quiet : u.fli.link = .down ∨ u.fli.sending ≠ none ∨ holdState t = u.fli.holdTold
  · exact .inl (h.silent quiet).1
  · simp only [not_or, Classical.not_not] at quiet
    obtain ⟨notDown, free, changed⟩ := quiet
    have up : u.fli.link = .up := by
      cases link : u.fli.link with
      | up => rfl
      | down => exact absurd link notDown
    exact .inr (h.symbol up free changed).1

/-- What the effect sent stays first on the channel. -/
theorem Told.first {x : ReturnItem} (h : Told u t) (sent : u.returnOut = [x]) : t.returnOut.head? = some x := by
  rcases h.returnOut with e | e <;> rw [e, sent] <;> rfl

/-- R169: a channel with an item in sending tells nothing. -/
theorem Told.busy {x : Sending} (h : Told u t) (busy : u.fli.sending = some x) :
    t.returnOut = u.returnOut ∧ t.fli.holdTold = u.fli.holdTold ∧ t.fli.sending = some x := by
  have some_ne : u.fli.sending ≠ none := by rw [busy]; nofun
  obtain ⟨out, told⟩ := h.silent (.inr (.inl some_ne))
  refine ⟨out, told, ?_⟩
  rw [h.sending, if_neg fun free => some_ne free.2, busy]

/-- R169: a free channel has told the present HOLD state. -/
theorem Told.present (h : Told u t) (up : u.fli.link = .up) (free : u.fli.sending = none) : t.fli.holdTold = holdState t := by
  by_cases same : holdState t = u.fli.holdTold
  · rw [(h.silent (.inr (.inr same))).2, same]
  · exact (h.symbol up free same).2

/-- R173: a free channel goes on with a reply ahead of every notice. -/
theorem Told.next (h : Told u t) (up : u.fli.link = .up) (free : u.fli.sending = none) : t.fli.sending =
    if t.fli.replies ≠ [] then some .reply else if t.fli.notices ≠ [] then some .notice else none := by
  rw [h.sending, if_pos ⟨up, free⟩]

/-- R169: a HOLD state that differs from the one told is a symbol at once on a free channel, and none while an item is being
sent. -/
theorem Told.change {hold : Bool} (h : Told u t) (up : u.fli.link = .up) (nothing : u.returnOut = [])
    (present : holdState t = hold) (changed : u.fli.holdTold = !hold) : holdState t = hold
      ∧ (u.fli.sending = none → t.returnOut = [.symbol hold] ∧ t.fli.holdTold = hold)
      ∧ ∀ x, u.fli.sending = some x → t.returnOut = [] ∧ t.fli.holdTold = !hold ∧ t.fli.sending = some x := by
  refine ⟨present, fun free => ?_, fun x busy => ?_⟩
  · have differs : holdState t ≠ u.fli.holdTold := by rw [present, changed]; cases hold <;> nofun
    have told := h.symbol up free differs
    rwa [present, nothing] at told
  · have told := h.busy busy
    rwa [nothing, changed] at told

end Channel

/-! ### An item whose sending ends (R171 to R173) -/

section Sent
variable {s : State}

theorem exec_returnSendEnd {x : Sending} (sending : s.fli.sending = some x) :
    exec .returnSendEnd s = .next (finish (endSending (fresh s))) := if_pos (Option.isSome_iff_exists.2 ⟨x, sending⟩)

theorem endSending_reply {r : Reply} {rs : List Reply} (sending : s.fli.sending = some .reply) (held : s.fli.replies = r :: rs) :
    endSending s = sendReturn (replyRecord r) { s with fli := { s.fli with replies := rs, sending := none } } := by
  unfold endSending
  rw [sending]
  simp only [held]

theorem endSending_notice {n : Notice} {ns : List Notice} (sending : s.fli.sending = some .notice)
    (held : s.fli.notices = n :: ns) :
    endSending s = sendReturn (noticeRecord n) { s with fli := { s.fli with notices := ns, sending := none } } := by
  unfold endSending
  rw [sending]
  simp only [held]

/-- Whatever was being sent, the channel is free again, and the HOLD state told and the link stand. -/
theorem endSending_frees (s : State) : (endSending s).fli.sending = none ∧ (endSending s).fli.link = s.fli.link
    ∧ (endSending s).fli.holdTold = s.fli.holdTold := by
  unfold endSending
  split
  · exact ⟨‹_›, rfl, rfl⟩
  · split <;> exact ⟨rfl, rfl, rfl⟩
  · split <;> exact ⟨rfl, rfl, rfl⟩

end Sent

/-! ### Records that arrive (R167, R168, R180) -/

section Arriving
variable {s : State} {r : LinkRecord}

theorem exec_recordReceived (up : s.fli.link = .up) :
    exec (.recordReceived r) s = .next (finish (takeRecord r (fresh s))) := if_pos up

/-- R167, R169: the place a record takes at the tail; the 48th asserts the FIFO input to HOLD. -/
theorem pushPlace_eq (c : Content) (f : Fli) : pushPlace c f =
    { f with
      fifo := f.fifo ++ [{ content := c, marks := [] }]
      holdFifo := if f.fifo.length = 47 then true else f.holdFifo } := by
  have places : (if f.fifo.length + 1 = Config.holdAt then true else f.holdFifo)
      = if f.fifo.length = 47 then true else f.holdFifo :=
    ite_congr (propext Nat.succ_inj) (fun _ => rfl) (fun _ => rfl)
  unfold pushPlace
  rw [places]

theorem takeRecord_joins {c : Content} (accepted : arrival r = .accepted c) (room : s.fli.fifo.length < 64) :
    takeRecord r s = { s with fli := pushPlace c s.fli } := by
  unfold takeRecord
  rw [accepted]
  exact if_pos room

/-- R168: a record that finds the FIFO full leaves OVERRUN, and a film record its mark. -/
theorem takeRecord_overruns {c : Content} (accepted : arrival r = .accepted c) (full : 64 ≤ s.fli.fifo.length) :
    takeRecord r s = { s with
      mu := { s.mu with sticky := { s.mu.sticky with overrun := true } }
      fli := { s.fli with
        fifo := match c.filmKind? with
          | some k => markTail k s.fli.fifo
          | none => s.fli.fifo } } := by
  have dropped : takeRecord r s = overrun c s := by
    unfold takeRecord
    rw [accepted]
    exact if_neg (Nat.not_lt.2 full)
  rw [dropped]
  unfold overrun
  cases c.filmKind? <;> rfl

theorem takeRecord_checkError {film : Option FilmKind} {d : Nat} (wrong : arrival r = .checkError film d) :
    takeRecord r s = takeCheckError film d s := by
  unfold takeRecord
  rw [wrong]

theorem takeRecord_unknown (unknown : arrival r = .unknown) (room : s.fli.fifo.length < 64) : takeRecord r s = s := by
  unfold takeRecord
  rw [unknown]
  exact if_pos room

theorem raiseNotice_overrun (n : Notice) (s : State) : (raiseNotice n s).mu.sticky.overrun = s.mu.sticky.overrun := by
  rcases raiseNotice_cases n s with ⟨_, e⟩ | ⟨_, e⟩ <;> rw [e]

theorem linkError_notices {d : Nat} (room : s.fli.notices.length < 32) :
    (linkError d s).fli.notices = s.fli.notices ++ [plainNotice .linkError d] := (raisesOnly_raiseNotice _ s).notices room

/-- R168: a lost film record leaves the sticky flags and the notices alone, and its indication or its mark in the FIFO. -/
theorem markLoss_frame (k : FilmKind) (s : State) : (markLoss k s).mu = s.mu ∧ (markLoss k s).fli.notices = s.fli.notices := by
  unfold markLoss
  split <;> exact ⟨rfl, rfl⟩

theorem markLoss_room (k : FilmKind) (room : s.fli.fifo.length < 64) :
    (markLoss k s).fli.fifo = s.fli.fifo ++ [{ content := .loss k, marks := [] }] := by
  unfold markLoss
  rw [if_pos (show s.fli.fifo.length < Config.fifoPlaces from room)]
  rfl

theorem markLoss_full (k : FilmKind) (full : 64 ≤ s.fli.fifo.length) : (markLoss k s).fli.fifo = markTail k s.fli.fifo := by
  unfold markLoss
  rw [if_neg (show ¬ s.fli.fifo.length < Config.fifoPlaces from Nat.not_lt.2 full)]

end Arriving

/-- Settles O16, by what the tests make of the record and by the room in the FIFO. -/
theorem recordReceivedJoins : Obligations.RecordReceivedJoins := by
  intro r s up
  refine ⟨_, _, exec_recordReceived up, finish_end _, fun c accepted room => ?joins, fun c accepted full => ?overruns,
    fun k d wrong => ?film, fun d wrong => ?other, fun unknown room => takeRecord_unknown (s := fresh s) unknown room⟩
  case joins =>
    rw [takeRecord_joins (s := fresh s) accepted room, pushPlace_eq]
    rfl
  case overruns =>
    rw [takeRecord_overruns (s := fresh s) accepted full]
    cases c.filmKind? <;> rfl
  case film =>
    have marked : takeRecord r (fresh s) = markLoss k (linkError d (fresh s)) := takeRecord_checkError wrong
    obtain ⟨mu, notices⟩ := markLoss_frame k (linkError d (fresh s))
    have fifo : (linkError d (fresh s)).fli.fifo = s.fli.fifo := raiseNotice_fifo ..
    rw [marked, mu, notices]
    refine ⟨raiseNotice_overrun .., linkError_notices (s := fresh s), fun room => ?_, fun full => ?_⟩
    · rw [markLoss_room k (by rwa [fifo]), fifo]
    · rw [markLoss_full k (by rwa [fifo]), fifo]
  case other =>
    have noted : takeRecord r (fresh s) = linkError d (fresh s) := takeRecord_checkError wrong
    rw [noted]
    exact ⟨raiseNotice_fifo .., raiseNotice_overrun .., linkError_notices (s := fresh s)⟩

/-! ### HOLD at 48 places and at 16 (R169) -/

/-- R169: a FIFO input that is asserted asserts HOLD. -/
theorem holdState_fifo {s : State} (hold : s.fli.holdFifo = true) : holdState s = true := by
  unfold holdState
  rw [hold]
  rfl

/-- R169: a place taken that leaves 16 withdraws the FIFO input. -/
theorem takeHead_releases {f : Fli} (noMarks : f.headMarks = []) (places : f.fifo.length = 17) :
    (takeHead f).holdFifo = false := by
  unfold takeHead
  rw [noMarks]
  match held : f.fifo, places with
  | p :: ps, places => exact if_pos (Nat.succ_inj.1 places)

theorem takeHead_channel (f : Fli) :
    (takeHead f).link = f.link ∧ (takeHead f).sending = f.sending ∧ (takeHead f).holdTold = f.holdTold := by
  unfold takeHead
  repeat' split
  all_goals exact ⟨rfl, rfl, rfl⟩

theorem filmHead_running {s : State} {c : Content} (head : filmHead s = some c) : s.mu.startup = .running := by
  have ready := (filmHead_ready head).1
  simp only [filmReady, Bool.and_eq_true, beq_iff_eq] at ready
  obtain ⟨⟨⟨⟨running, _⟩, _⟩, _⟩, _⟩ := ready
  exact running

/-- A command's end keeps HOLD withdrawn on a part that is running with its store ACTIVE. -/
theorem EndOfCommand.released {u t : State} (h : EndOfCommand u t) (fifo : u.fli.holdFifo = false) (active : u.sc.mode = .active)
    (running : u.mu.startup = .running) : holdState t = false := by
  have startup : t.mu.startup = .running := (congrArg Mu.startup h.core.mu).trans running
  have mode : t.sc.mode = .active := (h.modeAwake (by rw [active]; nofun)).trans active
  rw [holdState_active mode, h.core.holdFifo, fifo, startup]
  rfl

/-- Settles O14: what the effect sent comes first (`Told.first`), the rest by `Told.next`, `Told.present` and `Told.change`. -/
theorem returnChannelGoesOn : Obligations.ReturnChannelGoesOn := by
  refine ⟨fun s down => ?linkUp, fun s up => ⟨fun r rs sending held => ?reply, fun n ns sending held => ?notice,
    fun x sending => ?goesOn⟩, fun s r c up accepted places told => ?place48,
    fun s n samples up head idle noMarks places active told => ?place16⟩
  case linkUp =>
    have completes : exec .linkUp s = .next (finish (raiseLink (fresh s))) := if_pos down
    exact ⟨_, completes, finish_end _, (finish_end (raiseLink (fresh s))).told.first rfl⟩
  case reply =>
    have completes := exec_returnSendEnd sending
    rw [endSending_reply (s := fresh s) sending held] at completes
    exact ⟨_, completes, finish_end _, (finish_end _).told.first rfl⟩
  case notice =>
    have completes := exec_returnSendEnd sending
    rw [endSending_notice (s := fresh s) sending held] at completes
    exact ⟨_, completes, finish_end _, (finish_end _).told.first rfl⟩
  case goesOn =>
    obtain ⟨free, link, stands⟩ := endSending_frees (fresh s)
    have told := (finish_end (endSending (fresh s))).told
    have next := told.next (link.trans up) free
    refine ⟨_, exec_returnSendEnd sending, fun replies => ?_, fun noReplies notices => ?_, fun noReplies noNotices => ?_,
      told.present (link.trans up) free, fun changed => ?_⟩
    · rw [next, if_pos replies]
    · rw [next, if_neg (Classical.not_not.2 noReplies), if_pos notices]
    · rw [next, if_neg (Classical.not_not.2 noReplies), if_neg (Classical.not_not.2 noNotices)]
    · rw [(told.symbol (link.trans up) free (stands.symm ▸ changed)).1]
      exact List.getLast?_concat
  case place48 =>
    have joined := takeRecord_joins (s := fresh s) accepted (by rw [fresh_fli, places]; decide)
    obtain ⟨t, run, ended⟩ := completes_command (exec_recordReceived (r := r) up) joined
    have asserted : (pushPlace c s.fli).holdFifo = true := by rw [pushPlace_eq]; exact if_pos places
    exact ⟨t, run, ended.told.change up rfl (holdState_fifo (ended.core.holdFifo.trans asserted)) told⟩
  case place16 =>
    have noFrame (f : FrameCtx) : (taken s).rs.intake ≠ .receiving f := by
      rw [show (taken s).rs.intake = .idle from idle]; nofun
    obtain ⟨t, run, ended⟩ := actOn_completes (exec_line s) head (takeLineRecord_noFrame noFrame n samples)
    have released : holdState t = false :=
      ended.released (takeHead_releases noMarks places) active (filmHead_running (s := s) (headLine_film head))
    obtain ⟨link, sending, before⟩ := takeHead_channel s.fli
    have change := ended.told.change (link.trans up) rfl released (before.trans told)
    rw [show (taken s).fli.sending = s.fli.sending from sending] at change
    exact ⟨t, run, change⟩

end Sys2Proof.Machine
end

section
/-! SUPPORT. Link loss: the sending that is cut, the notices in their order, and the open or waiting frame that is aborted
(R78, R79, R98, R166). The statement O15. -/

namespace Sys2Proof.Machine

-- Checked one after another, as the tests are, to hold the memory and the threads down.
set_option Elab.async false

variable {s : State} {f : FrameCtx}

/-! ### The link goes down (R166) -/

/-- The link DOWN, the sending cut, LINK_LOST_SEEN set, and the notice LINK_LOST still to be raised. -/
def linkCut (s : State) : State :=
  { fresh s with
    fli := { s.fli with link := .down, sending := none }
    mu := { s.mu with sticky := { s.mu.sticky with linkLostSeen := true } } }

theorem dropLink_eq (s : State) : dropLink (fresh s) = raiseNotice (plainNotice .linkLost 0) (linkCut s) := rfl

/-- What LINK_LOSS leaves before anything follows from it. -/
def linkLost (s : State) : State := intakeLinkLoss (dropLink (fresh s))

theorem exec_linkLoss (up : s.fli.link = .up) : exec .linkLoss s = .next (finish (settle (linkLost s))) := if_pos up

theorem raiseNotice_full (n : Notice) (full : 32 ≤ s.fli.notices.length) :
    raiseNotice n s = { s with mu := { s.mu with sticky := { s.mu.sticky with noticesLost := true } } } :=
  if_neg (Nat.not_lt.2 full)

/-- A notice touches no intake. -/
theorem RaisesOnly.setIntake {ns : List Notice} {s t : State} (h : RaisesOnly ns s t) (i : Intake) :
    RaisesOnly ns (setIntake i s) (setIntake i t) :=
  ⟨h.dm, congrArg (fun r : Rs => { r with intake := i }) h.rs, h.sc, h.sau, h.cs, h.cli, h.body, h.fli, h.notices⟩

/-! ### The frame that is aborted (R78, R79, R136) -/

/-- The queue without the reservation of an aborted frame. -/
def unreserved (queue : List Entry) : List Entry :=
  if queue.any Entry.isReservation then dropReservation queue else queue

/-- The intake emptied, the frame's reservation and its slot given back, and its notice still to be raised. -/
def aborted (f : FrameCtx) (again : Bool) (s : State) : State :=
  { s with
    rs := { intake := .idle, work := .none, tone := none, geometry := none }
    sc := dropSlot f.slot (askedAgain again s.sc)
    cs := { s.cs with queue := unreserved s.cs.queue } }

theorem releaseReservation_eq (s : State) : ∃ again, releaseReservation s =
    { s with sc := askedAgain again s.sc, cs := { s.cs with queue := unreserved s.cs.queue } } := by
  unfold releaseReservation unreserved
  split
  · exact ⟨true, rfl⟩
  · exact ⟨s.sc.askAgain, rfl⟩

theorem abortWith_raises (f : FrameCtx) (lost : Notice) (s : State) :
    ∃ again, RaisesOnly [lost] (aborted f again s) (abortWith f lost s) := by
  obtain ⟨again, released⟩ := releaseReservation_eq s
  have raised := raisesOnly_raiseNotice lost (releaseReservation s)
  rw [released] at raised
  refine ⟨again, ?_⟩
  unfold abortWith
  rw [released]
  exact ⟨raised.dm, rfl, congrArg (dropSlot f.slot) raised.sc, raised.sau, raised.cs, raised.cli, raised.body, raised.fli,
    raised.notices⟩

/-- The abort does the same to the blocks before and after a notice. -/
theorem RaisesOnly.aborted {ns : List Notice} {s t : State} (h : RaisesOnly ns s t) (f : FrameCtx) (again : Bool) :
    RaisesOnly ns (aborted f again s) (aborted f again t) :=
  ⟨h.dm, rfl, congrArg (fun sc => dropSlot f.slot (askedAgain again sc)) h.sc, h.sau,
    congrArg (fun cs : Cs => { cs with queue := unreserved cs.queue }) h.cs, h.cli, h.body, h.fli, h.notices⟩

/-! ### The slot (R79, R98) -/

section Slot
variable {sc : Sc} {n : Nat}

theorem dropSlot_noBurst (noWrite : sc.write = none) : dropSlot (some n) sc = freeSlot n sc := by
  simp only [dropSlot, noWrite]

/-- R79: a waiting burst is dropped with the frame. -/
theorem dropSlot_waiting {w : WriteBurst} (write : sc.write = some w) (waits : w.active = false) :
    dropSlot (some n) sc = freeSlot n { sc with write := none } := by
  simp only [dropSlot, write, waits, Bool.false_eq_true, if_false]

/-- Log entry 14: an active one is left to end, and marked to give the slot back then. -/
theorem dropSlot_active {w : WriteBurst} (write : sc.write = some w) (active : w.active = true) :
    dropSlot (some n) sc = { sc with write := some { w with aborted := true } } := by
  simp only [dropSlot, write, active, if_true]

end Slot

/-! ### The intake at a link loss (R78) -/

theorem dropLink_raises (s : State) : RaisesOnly [plainNotice .linkLost 0] (linkCut s) (dropLink (fresh s)) :=
  raisesOnly_raiseNotice ..

theorem dropLink_intake (s : State) : (dropLink (fresh s)).rs.intake = s.rs.intake := congrArg Rs.intake (dropLink_raises s).rs

/-- An open or waiting frame: FRAME_LOST code 2 follows LINK_LOST. -/
theorem linkLost_frame (stands : s.rs.intake = .receiving f ∨ s.rs.intake = .waitSlot f ∨ s.rs.intake = .waitReservation f) :
    ∃ again, RaisesOnly [plainNotice .linkLost 0, frameNotice .frameLost f 2] (aborted f again (linkCut s)) (linkLost s) := by
  have aborts : linkLost s = abortWith f (frameNotice .frameLost f 2) (dropLink (fresh s)) := by
    rcases stands with h | h | h <;> simp only [linkLost, intakeLinkLoss, dropLink_intake, h]
  obtain ⟨again, lost⟩ := abortWith_raises f (frameNotice .frameLost f 2) (dropLink (fresh s))
  have both := ((dropLink_raises s).aborted f again).trans lost
  exact ⟨again, aborts ▸ both⟩

theorem linkLost_idle (idle : s.rs.intake = .idle) : linkLost s = dropLink (fresh s) := by
  simp only [linkLost, intakeLinkLoss, dropLink_intake, idle]

/-- R64: a waiting target stands. -/
theorem linkLost_waitTarget {x : Target} (waits : s.rs.intake = .waitTarget x) : linkLost s = dropLink (fresh s) := by
  simp only [linkLost, intakeLinkLoss, dropLink_intake, waits]

theorem linkLost_discarding {why : DiscardReason} {roll ordinal : Nat} (discarding : s.rs.intake = .discarding why roll ordinal) :
    linkLost s = setIntake .idle (dropLink (fresh s)) := by
  simp only [linkLost, intakeLinkLoss, dropLink_intake, discarding]

theorem linkLost_noFrame
    (noFrame : ∀ f, s.rs.intake ≠ .receiving f ∧ s.rs.intake ≠ .waitSlot f ∧ s.rs.intake ≠ .waitReservation f) :
    linkLost s = dropLink (fresh s) ∨ linkLost s = setIntake .idle (dropLink (fresh s)) := by
  cases intake : s.rs.intake with
  | idle => exact .inl (linkLost_idle intake)
  | waitTarget x => exact .inl (linkLost_waitTarget intake)
  | discarding why roll ordinal => exact .inr (linkLost_discarding intake)
  | receiving f => exact absurd intake (noFrame f).1
  | waitSlot f => exact absurd intake (noFrame f).2.1
  | waitReservation f => exact absurd intake (noFrame f).2.2

/-- Whatever the intake had open, the FLI, the MU, the SAU and the CLI are as the link's going down leaves them, notices
aside. -/
theorem linkLost_raises (s : State) : ∃ ns v, RaisesOnly ns v (linkLost s) ∧ v.fli = (linkCut s).fli ∧ v.mu = (linkCut s).mu
    ∧ v.sau = s.sau ∧ v.cli = s.cli := by
  by_cases frame : ∃ f, s.rs.intake = .receiving f ∨ s.rs.intake = .waitSlot f ∨ s.rs.intake = .waitReservation f
  · obtain ⟨f, stands⟩ := frame
    obtain ⟨again, raises⟩ := linkLost_frame stands
    exact ⟨_, _, raises, rfl, rfl, rfl, rfl⟩
  · simp only [not_exists, not_or] at frame
    rcases linkLost_noFrame frame with e | e <;> rw [e]
    · exact ⟨_, _, dropLink_raises s, rfl, rfl, rfl, rfl⟩
    · exact ⟨_, _, (dropLink_raises s).setIntake .idle, rfl, rfl, rfl, rfl⟩

/-- Settles O15: by `linkLost_frame` with a frame open or waiting, and by `linkLost_noFrame` with none. -/
theorem linkLossAborts : Obligations.LinkLossAborts := by
  intro s up
  obtain ⟨ns, v, raises, fli, mu, sau, cli⟩ := linkLost_raises s
  refine ⟨linkLost s, _, exec_linkLoss up, finish_settle_setsOff _, ?down, ?cut, ?seen, raises.sau.trans sau,
    raises.cli.trans cli, fun noFrame => ?noFrame, fun idle => ?idle, fun why roll ordinal discarding => ?discarding,
    fun x waits => ?target, fun f stands => ?frame⟩
  case down | cut => rw [raises.fli, fli]; rfl
  case seen =>
    have seen : (linkLost s).mu.body.sticky.linkLostSeen = true := by rw [raises.body, mu]; rfl
    exact seen
  case noFrame =>
    have drop := dropLink_raises s
    have full (h : 32 ≤ s.fli.notices.length) : (dropLink (fresh s)).fli.notices = s.fli.notices
        ∧ (dropLink (fresh s)).mu.sticky.noticesLost = true := by
      rw [dropLink_eq, raiseNotice_full (s := linkCut s) _ h]
      exact ⟨rfl, rfl⟩
    rcases linkLost_noFrame noFrame with e | e <;> rw [e] <;> exact ⟨drop.sc, drop.cs, drop.notices, full⟩
  case idle => rw [linkLost_idle idle]; exact (dropLink_raises s).rs
  case discarding =>
    rw [linkLost_discarding discarding]
    exact ((dropLink_raises s).setIntake .idle).rs
  case target => rw [linkLost_waitTarget waits]; exact (dropLink_raises s).rs
  case frame =>
    obtain ⟨again, raises⟩ := linkLost_frame stands
    have sc {n : Nat} (slot : f.slot = some n) : (linkLost s).sc = dropSlot (some n) (askedAgain again s.sc) :=
      slot ▸ raises.sc
    refine ⟨raises.rs, congrArg Cs.queue raises.cs, fun room => raises.notices (Nat.add_le_add_right (Nat.le_of_lt_succ room) 2),
      fun n slot noWrite inside enabled => ?_, fun n w slot write waits inside enabled => ?_,
      fun n w slot write active => ?_⟩
    · rw [sc slot, dropSlot_noBurst (sc := askedAgain again s.sc) noWrite]
      exact slotAt_freeSlot inside enabled
    · rw [sc slot, dropSlot_waiting (sc := askedAgain again s.sc) write waits]
      exact ⟨slotAt_freeSlot inside enabled, rfl⟩
    · rw [sc slot, dropSlot_active (sc := askedAgain again s.sc) write active]
      exact ⟨rfl, rfl⟩

end Sys2Proof.Machine
end

section
/-! SUPPORT. STATUS READ, STATUS CLEAR, a record of unknown kind, and LINK RESET from its taking to its end (R93, R113 to R116,
R165, R174 to R176, R180). The statements O58, O59 and O60. -/

namespace Sys2Proof.Machine

-- Checked one after another, as the tests are, to hold the memory and the threads down.
set_option Elab.async false

/-! ### What STATUS READ reports (R113 to R116, R174) -/

theorem isFree_eq (x : Slot) : x.isFree = (x == .free) := by cases x <;> rfl
theorem isOffline_eq (x : Slot) : x.isOffline = (x == .offline) := by cases x <;> rfl
theorem isMarker_eq (e : Entry) : e.isMarker = (e == .marker) := by cases e <;> rfl

theorem sheetsPresent_eq (r : SetRecord) : sheetsPresent r
    = (r.sheets.take ((r.title.map Title.sheetCount).getD 0)).countP SheetPos.present := by
  unfold sheetsPresent countedSheets
  cases r.title <;> rfl

theorem firstWhere_eq {α : Type} (p : α → Bool) (l : List α) (k : Nat) :
    firstWhere p k l = (l.findIdx? p).map (· + k) := by
  induction l generalizing k with
  | nil => rfl
  | cons x xs ih =>
    rw [firstWhere, List.findIdx?_cons, ih]
    cases p x
    · simp [Function.comp_def, Nat.add_left_comm, Nat.add_comm]
    · simp

/-- R115: the current set is the first record that is OPEN. -/
theorem currentSet_first {sau : Sau} {n : Nat} (current : currentSet sau = some n) :
    (setAt sau n).state = .opened ∧ ∀ i, i < n → (setAt sau i).state ≠ .opened := by
  have first : sau.sets.findIdx? SetRecord.isOpen = some n := by
    have e := (firstWhere_eq SetRecord.isOpen sau.sets 0).symm.trans current
    simpa using e
  obtain ⟨inside, opened, before⟩ := List.findIdx?_eq_some_iff_getElem.1 first
  unfold setAt
  refine ⟨?_, fun i earlier => ?_⟩
  · rw [getD_inside inside]
    exact eq_of_beq opened
  · rw [getD_inside (Nat.lt_trans earlier inside)]
    exact fun opened => before i earlier (beq_iff_eq.2 opened)

theorem currentSet_absent {sau : Sau} (absent : currentSet sau = none) (x : SetRecord) (held : x ∈ sau.sets) :
    x.state ≠ .opened := by
  have none_open : sau.sets.findIdx? SetRecord.isOpen = none := by
    have e := (firstWhere_eq SetRecord.isOpen sau.sets 0).symm.trans absent
    simpa using e
  exact fun opened => Bool.eq_false_iff.1 (List.findIdx?_eq_none_iff.1 none_open x held) (beq_iff_eq.2 opened)

section Records
variable {s : State} {tag mask code : Byte}

theorem headStatusRead_some (head : mgmtHead s = some (tag, .statusRead)) : headStatusRead s = some tag := by
  simp only [headStatusRead, head]

theorem headStatusClear_some (head : mgmtHead s = some (tag, .statusClear mask)) : headStatusClear s = some (tag, mask) := by
  simp only [headStatusClear, head]

theorem headUnknown_some (head : mgmtHead s = some (tag, .unknown code)) : headUnknown s = some (tag, code) := by
  simp only [headUnknown, head]

theorem headLinkReset_some (head : mgmtHead s = some (tag, .linkReset)) : headLinkReset s = some tag := by
  simp only [headLinkReset, head]

end Records

/-- Settles O58: the report is read off the state as it stands when the record has been taken. -/
theorem statusRecords : Obligations.StatusRecords := by
  refine ⟨fun s tag head => ?read, fun s tag mask head => ?clear, fun s tag code head => ?unknown⟩
  case read =>
    obtain ⟨t, run, ended⟩ := actOn_completes (exec_statusRead s) (headStatusRead_some head) rfl
    refine ⟨statusReport (taken s), t, run, ended, ?intake, rfl, rfl, ?free, ?offline, rfl, rfl, rfl, rfl, ?length, ?sets,
      fun n current => currentSet_first current, currentSet_absent, rfl, fun empty => ?groupEmpty, fun held => ?groupHeld, rfl,
      rfl, rfl, rfl, ?markers, rfl, rfl, rfl, rfl, rfl, rfl, rfl, rfl, rfl, rfl⟩
    case intake =>
      show s.rs.intake.status = _
      cases s.rs.intake <;> rfl
    case free => exact List.countP_congr fun x _ => by rw [isFree_eq]
    case offline => exact List.countP_congr fun x _ => by rw [isOffline_eq]
    case length => exact List.length_map ..
    case sets =>
      intro i x held
      refine ⟨x.status, ?_, rfl, rfl, rfl, rfl, sheetsPresent_eq x⟩
      show (s.sau.sets.map SetRecord.status)[i]? = _
      rw [List.getElem?_map, held]
      rfl
    case groupEmpty => exact if_pos empty
    case groupHeld => exact if_neg held
    case markers => exact List.countP_congr fun e _ => by rw [isMarker_eq]
  case clear =>
    obtain ⟨t, run, ended⟩ := actOn_completes (exec_statusClear s) (headStatusClear_some head) rfl
    exact ⟨s.mu.sticky.clear mask, t, run, ended, rfl, rfl, rfl, rfl, rfl⟩
  case unknown => exact actOn_completes (exec_unknownKind s) (headUnknown_some head) rfl

/-! ### The store as LINK RESET begins (R93) -/

section Store
variable {sc : Sc}

/-- R93: the store as the SC goes on from it when LINK RESET is taken. -/
def resetBegun (sc : Sc) : Sc :=
  { sc with
    slots := resetSlots sc
    write := resetWrite sc.write
    read := resetRead sc.read
    turns := readTurns
    deferral := if sc.forced.isSome then sc.deferral else 0
    mode := if sc.mode = .retaining then .waking else sc.mode
    askAgain := false }

theorem resetStore_eq (sc : Sc) : resetStore sc = storeSettle (resetBegun sc) := rfl

theorem resetWrite_active {b : WriteBurst} (active : b.active = true) :
    resetWrite (some b) = some { b with aborted := true } := if_pos active

theorem resetRead_active {b : ReadBurst} (active : b.active = true) :
    resetRead (some b) = some { b with discard := true, release := true } := if_pos active

/-- R93 step 1: a burst that only waits is dropped. -/
theorem resetWrite_waiting {w : Option WriteBurst} (waits : ∀ b, w = some b → b.active = false) : resetWrite w = none := by
  cases w with
  | none => rfl
  | some b => exact if_neg (Bool.eq_false_iff.1 (waits b rfl))

theorem resetRead_waiting {r : Option ReadBurst} (waits : ∀ b, r = some b → b.active = false) : resetRead r = none := by
  cases r with
  | none => rfl
  | some b => exact if_neg (Bool.eq_false_iff.1 (waits b rfl))

theorem resetBegun_active (sc : Sc) : BurstsActive (resetBegun sc) where
  read b e := by
    change resetRead sc.read = some b at e
    unfold resetRead at e
    split at e
    · split at e
      · cases e; assumption
      · cases e
    · cases e
  write b e := by
    change resetWrite sc.write = some b at e
    unfold resetWrite at e
    split at e
    · split at e
      · cases e; assumption
      · cases e
    · cases e

theorem resetBegun_quiet (quiet : burstActive sc = false) : burstActive (resetBegun sc) = false := by
  obtain ⟨write, read⟩ := Bool.or_eq_false_iff.1 quiet
  have noWrite : resetWrite sc.write = none := resetWrite_waiting fun b e => by rwa [e] at write
  have noRead : resetRead sc.read = none := resetRead_waiting fun b e => by rwa [e] at read
  simp only [burstActive, resetBegun, noWrite, noRead, Bool.or_self]

/-- R100: a grant turns an arbiter only where two bursts wait. -/
theorem grantBursts_turns (active : BurstsActive sc) : (grantBursts sc).turns = sc.turns := by
  unfold grantBursts
  split
  · rename_i w r write read
    split
    · rw [if_pos (by rw [active.write w write]; rfl)]
    · rfl
  all_goals rfl

theorem storeIdle_turns (active : BurstsActive sc) : (storeIdle sc).turns = sc.turns := by
  unfold storeIdle
  repeat' split
  · exact grantBursts_turns active
  all_goals rfl

theorem storeSettle_turns (active : BurstsActive sc) : (storeSettle sc).turns = sc.turns := by
  unfold storeSettle
  split
  · rfl
  · split
    · split
      · rfl
      · split
        · rfl
        · split
          · rfl
          · exact storeIdle_turns (sc := { sc with forced := none }) ⟨active.read, active.write⟩
    · exact storeIdle_turns active

/-- R105: a forced refresh that still owes one is pending until it has run; with no refresh running and no burst active the
next one runs, a deferred one first. -/
theorem storeSettle_forced {owed : Nat} (forced : sc.forced = some owed) (owes : 0 < sc.deferral ∨ 0 < owed) :
    (storeSettle sc).forced = some owed ∧ (sc.refresh = none → burstActive sc = false →
      (storeSettle sc).refresh = some (if 0 < sc.deferral then .deferred else .owed)) := by
  by_cases running : sc.refresh = none
  · cases quiet : burstActive sc with
    | true =>
      have stands : storeSettle sc = sc := by simp [storeSettle, running, forced, quiet]
      rw [stands]
      exact ⟨forced, fun _ => nofun⟩
    | false =>
      by_cases deferral : 0 < sc.deferral
      · rw [storeSettle_deferred running forced quiet deferral, if_pos deferral]
        exact ⟨forced, fun _ _ => rfl⟩
      · rw [storeSettle_owed running forced quiet (by omega) (by omega), if_neg deferral]
        exact ⟨forced, fun _ _ => rfl⟩
  · rw [storeSettle_running running]
    exact ⟨forced, fun ended => absurd ended running⟩

theorem resetBegun_held {n : Nat} {state : ChipState} {chip : Chip} (inside : n < sc.slots.length)
    (held : slotAt sc n = .held state chip) : slotAt (resetBegun sc) n =
      if slotBusy sc n then .held state chip else if bankOf n < sc.banks then .free else .offline := by
  have stands : sc.slots[n] = .held state chip := (getD_inside inside).symm.trans held
  simp only [slotAt, resetBegun, resetSlots, List.getD_eq_getElem?_getD, List.getElem?_map, List.getElem?_zipIdx,
    List.getElem?_eq_getElem inside, Option.map_some, Option.getD_some, Nat.zero_add, stands]

theorem resetBegun_offline {n : Nat} (inside : n < sc.slots.length) (offline : slotAt sc n = .offline) :
    slotAt (resetBegun sc) n = .offline := by
  have stands : sc.slots[n] = .offline := (getD_inside inside).symm.trans offline
  simp only [slotAt, resetBegun, resetSlots, List.getD_eq_getElem?_getD, List.getElem?_map, List.getElem?_zipIdx,
    List.getElem?_eq_getElem inside, Option.map_some, Option.getD_some, stands]

/-- R93 step 2: a chip's slot is given back, but for the one an active burst works on. -/
theorem resetStore_freed {n : Nat} {state : ChipState} {chip : Chip} (inside : n < sc.slots.length)
    (held : slotAt sc n = .held state chip) (idle : slotBusy sc n = false) (enabled : bankOf n < sc.banks) :
    slotAt (resetStore sc) n = .free := by
  rw [resetStore_eq, storeSettle_slotAt, resetBegun_held inside held, idle]
  exact if_pos enabled

theorem resetStore_busy {n : Nat} {state : ChipState} {chip : Chip} (inside : n < sc.slots.length)
    (held : slotAt sc n = .held state chip) (busy : slotBusy sc n = true) : slotAt (resetStore sc) n = .held state chip := by
  rw [resetStore_eq, storeSettle_slotAt, resetBegun_held inside held, busy]
  rfl

theorem resetStore_offline {n : Nat} (inside : n < sc.slots.length) (offline : slotAt sc n = .offline) :
    slotAt (resetStore sc) n = .offline := by
  rw [resetStore_eq, storeSettle_slotAt, resetBegun_offline inside offline]

theorem resetStore_mode (sc : Sc) : (resetStore sc).mode = if sc.mode = .retaining then .waking else sc.mode :=
  storeSettle_mode _

/-- Log entry 21: the deferral count stands only where a forced refresh still has to run it. -/
theorem resetStore_count (sc : Sc) : (resetStore sc).deferral = if sc.forced.isSome then sc.deferral else 0 := by
  rw [resetStore_eq, storeSettle_frame]
  rfl

/-- R93: the store setup, the timer and the DRAM are kept. -/
theorem resetStore_keeps (sc : Sc) : (resetStore sc).banks = sc.banks ∧ (resetStore sc).interval = sc.interval
    ∧ (resetStore sc).cfgBanks = sc.cfgBanks ∧ (resetStore sc).cfgInterval = sc.cfgInterval ∧ (resetStore sc).timer = sc.timer
    ∧ (resetStore sc).dram = sc.dram := by
  rw [resetStore_eq, storeSettle_frame]
  exact ⟨rfl, rfl, rfl, rfl, rfl, rfl⟩

/-- R93 step 4: the bursts that stand are the active ones, marked. -/
theorem resetStore_bursts (sc : Sc) : (resetStore sc).write = resetWrite sc.write ∧ (resetStore sc).read = resetRead sc.read :=
  (storeSettle_active (resetBegun_active sc)).symm

theorem resetStore_readTurns (sc : Sc) : (resetStore sc).turns = readTurns := storeSettle_turns (resetBegun_active sc)

theorem resetStore_running {k : Refresh} (running : sc.refresh = some k) : (resetStore sc).refresh = some k := by
  have stands : storeSettle (resetBegun sc) = resetBegun sc := storeSettle_running (running ▸ Option.some_ne_none k)
  rw [resetStore_eq, stands]
  exact running

theorem resetStore_forced {owed : Nat} (forced : sc.forced = some owed) (owes : 0 < sc.deferral ∨ 0 < owed) :
    (resetStore sc).forced = some owed ∧ (resetStore sc).deferral = sc.deferral
      ∧ (sc.refresh = none → burstActive sc = false →
        (resetStore sc).refresh = some (if 0 < sc.deferral then .deferred else .owed)) := by
  have count : (resetBegun sc).deferral = sc.deferral := if_pos (by rw [forced]; rfl)
  obtain ⟨pending, runs⟩ := storeSettle_forced (sc := resetBegun sc) forced (count.symm ▸ owes)
  rw [count] at runs
  exact ⟨pending, (resetStore_count sc).trans count, fun ended quiet => runs ended (resetBegun_quiet quiet)⟩

end Store

/-! ### LINK RESET is taken (R165, R176) -/

/-- R165 step 1: CARD ABANDON for a card in flight. -/
theorem abandonCard_eq (s : State) :
    abandonCard s = { s with cardOut := s.cardOut ++ (s.cli.card.map fun c => cardAbandonRecord c.tray).toList } := by
  unfold abandonCard
  cases s.cli.card with
  | none => simp only [Option.map_none, Option.toList_none, List.append_nil]
  | some c => rfl

theorem linkResetOp_eq (tag : Byte) (s : State) : linkResetOp tag s =
    { s with
      mu := { s.mu with staging := [], resetTag := some tag }
      dm := { s.dm with state := .normal, last := none }
      rs := { intake := .idle, work := .none, tone := none, geometry := none }
      sc := resetStore s.sc
      sau := .blank
      cs := .blank
      cli := resetCli s.cli
      cardOut := s.cardOut ++ (s.cli.card.map fun c => cardAbandonRecord c.tray).toList } := by
  unfold linkResetOp
  rw [abandonCard_eq]
  rfl

/-- Settles O59: each block's part by `linkResetOp_eq`, the store's by what `resetStore` does with slots, bursts and refreshes. -/
theorem linkResetStarts : Obligations.LinkResetStarts := by
  intro s tag head
  obtain ⟨t, run, ended⟩ := actOn_completes (exec_linkReset s) (headLinkReset_some head) (linkResetOp_eq tag (taken s))
  obtain ⟨banks, interval, cfgBanks, cfgInterval, timer, dram⟩ := resetStore_keeps s.sc
  obtain ⟨write, read⟩ := resetStore_bursts s.sc
  refine ⟨_, t, run, ended, rfl, rfl, rfl, rfl, rfl, rfl, rfl, ?card, banks, interval, cfgBanks, cfgInterval, timer, dram,
    resetStore_readTurns s.sc, fun unforced => ?count, fun active => ?active, fun asleep => ?asleep,
    fun n state chip => resetStore_freed, fun n state chip => resetStore_busy, fun n => resetStore_offline,
    fun w held active => write.trans ((congrArg resetWrite held).trans (resetWrite_active active)),
    fun waits => write.trans (resetWrite_waiting waits),
    fun r held active => read.trans ((congrArg resetRead held).trans (resetRead_active active)),
    fun waits => read.trans (resetRead_waiting waits), fun k => resetStore_running, fun owed => resetStore_forced⟩
  case card =>
    show (s.cli.card.map fun c => cardAbandonRecord c.tray).toList = _
    cases s.cli.card <;> rfl
  case count => exact (resetStore_count s.sc).trans (if_neg (by rw [unforced]; nofun))
  case active => exact (resetStore_mode s.sc).trans (by rw [active]; rfl)
  case asleep =>
    refine (resetStore_mode s.sc).trans ?_
    cases mode : s.sc.mode with
    | active => exact absurd mode asleep
    | retaining | waking => rfl

/-! ### LINK RESET is complete (R54, R172, R176) -/

section Complete
variable {s : State} {tag : Byte}

/-- Log entry 20: the store's part has ended. -/
theorem storeResetEnded_iff (sc : Sc) : storeResetEnded sc = true
    ↔ sc.write = none ∧ sc.read = none ∧ sc.refresh = none ∧ sc.forced = none ∧ sc.mode = .active := by
  simp [storeResetEnded, burstPresent, and_assoc]

theorem keptSending_eq (f : Fli) : keptSending f = if f.sending = some .reply then some .reply else none := by
  unfold keptSending
  cases f.sending with
  | none => rfl
  | some x => cases x <;> rfl

/-- R172, R173: the notices are gone, so no record leaves and a channel that is UP has a reply to send. -/
theorem resetComplete_told {t : State} (ended : EndOfCommand (resetCompleteOp tag (fresh s)) t) :
    (∀ x, .record x ∉ t.returnOut) ∧ (s.fli.link = .up → t.fli.sending = some .reply) := by
  refine ⟨fun x left => ?_, fun up => ?_⟩
  · rcases ended.told.returnOut with e | e <;> rw [e] at left <;> simp [resetCompleteOp] at left
  · have replies : t.fli.replies ≠ [] := by
      rw [ended.core.replies]
      exact List.append_ne_nil_of_right_ne_nil _ (List.cons_ne_nil _ _)
    have kept : (resetCompleteOp tag (fresh s)).fli.sending = if s.fli.sending = some .reply then some .reply else none :=
      keptSending_eq s.fli
    by_cases sending : s.fli.sending = some .reply
    · rw [if_pos sending] at kept
      exact (ended.told.busy kept).2.2
    · rw [if_neg sending] at kept
      rw [ended.told.next up kept, if_pos replies]

end Complete

/-- Settles O60: the effect by `storeResetEnded_iff`, the channel by `resetComplete_told`. -/
theorem linkResetCompletes : Obligations.LinkResetCompletes := by
  intro s tag owed
  refine ⟨fun noWrite noRead noRefresh unforced active => ?complete, fun going => ?early⟩
  case complete =>
    have done := (storeResetEnded_iff s.sc).2 ⟨noWrite, noRead, noRefresh, unforced, active⟩
    have stands : resetEnding s = some tag := (if_pos done).trans owed
    obtain ⟨t, run, ended⟩ := actOn_completes (exec_linkResetComplete s) stands rfl
    have awake : (resetCompleteOp tag (fresh s)).sc.mode ≠ .retaining := by
      rw [show (resetCompleteOp tag (fresh s)).sc.mode = .active from active]; nofun
    have notices : t.fli.notices = [] := congrArg Fli.notices (ended.rest (.inl awake)).2
    obtain ⟨noRecord, reply⟩ := resetComplete_told ended
    refine ⟨_, t, run, ended, rfl, rfl, rfl, rfl, rfl, rfl, rfl, rfl, rfl, rfl, ?_, notices, noRecord, reply⟩
    rw [← keptSending_eq]
    rfl
  case early =>
    have notEnded : ¬ storeResetEnded s.sc = true := by
      rw [storeResetEnded_iff]
      rintro ⟨noWrite, noRead, noRefresh, unforced, active⟩
      rcases going with h | h | h | h | h
      · exact h noWrite
      · exact h noRead
      · exact h noRefresh
      · exact h unforced
      · exact h active
    have absent : resetEnding s = none := if_neg notEnded
    rw [exec_linkResetComplete, absent]
    rfl

end Sys2Proof.Machine
end

section
/-! SUPPORT. What one step of the part carries out (log entry 2). The statement O1. -/

namespace Sys2Proof.Machine

variable {s : State} {c : Instr} {cs : List Instr}

/-- The command at the front of the queue leaves it before it is carried out. -/
theorem step_of_pending_cons (queue : s.pending = c :: cs) : step s = exec c { s with pending := cs } := by
  unfold step
  rw [queue]

/-- Settles O1, by `step_of_pending_cons` at the lengthened queue: taking its front off gives `s` back. -/
theorem stepRunsFrontCommand : Obligations.StepRunsFrontCommand := by
  intro c s
  exact step_of_pending_cons rfl

end Sys2Proof.Machine
end

section
/-! SUPPORT. The set records as the SAU searches them, and the destination of a frame (R113 to R116, R119, R120). The statement
O45. -/

namespace Sys2Proof.Machine

-- Checked one after another, as the tests are, to hold the memory and the threads down.
set_option Elab.async false

variable {sau : Sau} {n : Nat}

/-! ### The record of a number -/

/-- R113: a record that is not EMPTY is one of the eight. -/
theorem setAt_notEmpty_inside (notEmpty : (setAt sau n).state ≠ .empty) : n < sau.sets.length := by
  refine Decidable.byContradiction fun outside => notEmpty ?_
  unfold setAt
  rw [getD_outside (Nat.le_of_not_lt outside)]
  rfl

/-- R115: the current set is OPEN. -/
theorem currentSet_opened (current : currentSet sau = some n) : (setAt sau n).state = .opened :=
  (currentSet_first current).1

theorem currentSet_inside (current : currentSet sau = some n) : n < sau.sets.length :=
  setAt_inside (currentSet_opened current)

theorem titleKeyIs_iff {k : DrawingKey} {r : SetRecord} : titleKeyIs k r = true ↔ r.title.map Title.key = some k := by
  unfold titleKeyIs
  cases r.title <;> simp

/-! ### The destination of an indexed frame (R119) -/

section Indexed
variable {m : Matched}

/-- R119 steps 1 and 2: the current set takes a frame when its key is absent or the frame's. -/
theorem currentTakes_some {k : DrawingKey} (current : currentSet sau = some n)
    (takes : (setAt sau n).title = none ∨ (setAt sau n).title.map Title.key = some k) : currentTakes k sau = some n := by
  unfold currentTakes
  simp only [current]
  rcases takes with absent | equal
  · simp [absent]
  · simp [titleKeyIs_iff.2 equal]

theorem currentTakes_none {k : DrawingKey}
    (passes : ∀ n, currentSet sau = some n → ∃ x, (setAt sau n).title = some x ∧ x.key ≠ k) : currentTakes k sau = none := by
  unfold currentTakes
  cases current : currentSet sau with
  | none => rfl
  | some n =>
    obtain ⟨x, title, other⟩ := passes n current
    simp [titleKeyIs, title, other]

/-- R119 steps 3 and 4: what becomes of a frame that the current set does not take. -/
theorem destinationOf_passed (passes : ∀ n, currentSet sau = some n → ∃ x, (setAt sau n).title = some x ∧ x.key ≠ m.key) :
    (destinationOf (some m) sau = .passThrough
      ∧ ∀ i, i < sau.sets.length → (setAt sau i).state = .held → (setAt sau i).title.map Title.key ≠ some m.key)
    ∨ ∃ n, n < sau.sets.length ∧ destinationOf (some m) sau = .set n ∧ (setAt sau n).state = .held
      ∧ (setAt sau n).title.map Title.key = some m.key
      ∧ ∀ i, i < sau.sets.length → (setAt sau i).state = .held → (setAt sau i).title.map Title.key = some m.key →
          (setAt sau n).opening.getD 0 ≤ (setAt sau i).opening.getD 0 := by
  unfold destinationOf
  simp only [currentTakes_none passes]
  rcases oldestHeld_cases (fun _ r => titleKeyIs m.key r) sau.sets 0 with ⟨found, others⟩ | ⟨n, inside, found, held, key, oldest⟩
  · refine .inl ⟨by rw [found], fun i inside held key => ?_⟩
    exact Bool.eq_false_iff.1 (others i inside held) (titleKeyIs_iff.2 key)
  · refine .inr ⟨n, inside, by rw [found, Nat.zero_add], held, titleKeyIs_iff.1 key, fun i inside held key => ?_⟩
    exact oldest i inside held (titleKeyIs_iff.2 key)

end Indexed

/-- Settles O45: an indexed frame by `currentTakes_some` and `destinationOf_passed`, an unindexed one by the group's state. -/
theorem destinationOfFrame : Obligations.DestinationOfFrame := by
  intro sau m
  refine ⟨fun n current takes => ?current, fun passes => ?passed, fun collects => ?group, fun closed => ?closed⟩
  case current => simp only [destinationOf, currentTakes_some current takes]
  case passed =>
    rcases destinationOf_passed passes with ⟨dest, others⟩ | ⟨n, inside, dest, held, key, oldest⟩
    · rw [dest]
      exact ⟨nofun, fun i inside held key => absurd key (others i inside held), fun _ => rfl, nofun⟩
    · rw [dest]
      refine ⟨?_, fun _ _ _ _ => ⟨n, inside, rfl⟩, fun none => absurd key (none n inside held), nofun⟩
      rintro _ ⟨⟩
      exact ⟨held, key, oldest⟩
  case group => exact if_neg collects
  case closed => exact if_pos closed

end Sys2Proof.Machine
end

section
/-! SUPPORT. START and END: the record that is opened, the equations of a set's end, and the SAU as the only block that an END
changes (R29, R77, R125, R126). The statements O31 and O32. -/

namespace Sys2Proof.Machine

-- Checked one after another, as the tests are, to hold the memory and the threads down.
set_option Elab.async false

/-! ### A target is taken with no frame open (R77) -/

section Taken
variable {s : State} {x : Target}

/-- A target has left the FIFO, and the intake is IDLE. -/
def targetTaken (s : State) : State := { taken s with rs := { s.rs with intake := .idle } }

theorem start_completes (head : headTarget .start s = some x) (noFrame : ∀ f, s.rs.intake ≠ .receiving f) :
    ∃ t, exec .start s = .next t ∧ SetsOff (startTargetOp x (targetTaken s)) t := by
  have effect : targetOp x (taken s) = startTargetOp x (targetTaken s) := by
    unfold targetOp
    simp only [(headTarget_film head).2]
    rfl
  rw [← effect]
  exact target_completes head noFrame (.inl ⟨rfl, rfl⟩)

theorem endTarget_completes (head : headTarget .endSet s = some x) (noFrame : ∀ f, s.rs.intake ≠ .receiving f) :
    ∃ t, exec .endTarget s = .next t ∧ SetsOff (endTargetOp x (targetTaken s)) t := by
  have effect : targetOp x (taken s) = endTargetOp x (targetTaken s) := by
    unfold targetOp
    simp only [(headTarget_film head).2]
    rfl
  rw [← effect]
  exact target_completes head noFrame (.inr (.inl ⟨rfl, rfl⟩))

theorem batchEnd_completes (head : headTarget .batchEnd s = some x) (noFrame : ∀ f, s.rs.intake ≠ .receiving f) :
    ∃ t, exec .batchEnd s = .next t ∧ SetsOff (batchEndOp x (targetTaken s)) t := by
  have effect : targetOp x (taken s) = batchEndOp x (targetTaken s) := by
    unfold targetOp
    simp only [(headTarget_film head).2]
    rfl
  rw [← effect]
  exact target_completes head noFrame (.inr (.inr ⟨rfl, rfl⟩))

end Taken

/-! ### START with no current set (R126) -/

section Start
variable {b : State} {x : Target}

theorem startTargetOp_noCurrent (noCurrent : currentSet b.sau = none) : startTargetOp x b = openOrForce x b := by
  unfold startTargetOp
  simp only [noCurrent]

/-- R126 step 2. -/
theorem openOrForce_opens {n : Nat} (empty : emptyRecord b.sau = some n) : openOrForce x b = openRecord n b := by
  unfold openOrForce
  simp only [empty]

theorem oldestHeld_absent {p : Nat → SetRecord → Bool} {l : List SetRecord} (noHeld : ∀ r, r ∈ l → r.state ≠ .held) :
    oldestHeld p 0 l = none := by
  rcases oldestHeld_cases p l 0 with ⟨found, _⟩ | ⟨n, inside, _, held, _⟩
  · exact found
  · rw [getD_inside inside] at held
    exact absurd held (noHeld _ (List.getElem_mem inside))

/-- R126 step 4. -/
theorem openOrForce_passes (noEmpty : emptyRecord b.sau = none) (noHeld : ∀ r, r ∈ b.sau.sets → r.state ≠ .held) :
    openOrForce x b = setPassMode true b := by
  unfold openOrForce
  simp only [noEmpty, oldestHeld_absent noHeld]

end Start

/-- Settles O31: START is `openOrForce` of the state with the target taken. -/
theorem startOpensRecord : Obligations.StartOpensRecord := by
  intro s x head noFrame noCurrent
  obtain ⟨t, completes, sets⟩ := start_completes head noFrame
  rw [startTargetOp_noCurrent (b := targetTaken s) noCurrent] at sets
  refine ⟨fun n empty => ?_, fun noEmpty noHeld => ?_⟩
  · rw [openOrForce_opens (b := targetTaken s) empty] at sets
    exact ⟨_, t, completes, sets, rfl, rfl, rfl, rfl, rfl⟩
  · rw [openOrForce_passes (b := targetTaken s) noEmpty noHeld] at sets
    exact ⟨_, t, completes, sets, rfl, rfl, rfl, rfl⟩

/-! ### The end of a set (R125) -/

section EndSet
variable {b : State} {n roll ordinal : Nat} {x : Title}

/-- R172: a notice with a place for it in the queue. -/
theorem raiseNotice_room (note : Notice) (room : b.fli.notices.length < 32) :
    raiseNotice note b = { b with fli := { b.fli with notices := b.fli.notices ++ [note] } } := if_pos room

/-- A notice raised and a record changed: the order does not matter. -/
theorem raiseNotice_withRecord (note : Notice) (r : SetRecord) (items : List BacklogItem) :
    raiseNotice note (withRecord n r items b) = withRecord n r items (raiseNotice note b) := by
  rcases raiseNotice_cases note b with ⟨room, e⟩ | ⟨full, e⟩ <;> rw [e]
  · exact if_pos room
  · exact if_neg (Nat.not_lt.2 full)

theorem closeSet_filed (filed : setCards (setAt b.sau n) ≠ []) (short : Bool) :
    closeSet n short b = withRecord n { setAt b.sau n with state := .closed, short := short } [.set n] b := by
  rcases closeSet_cases n short b with ⟨none, _⟩ | ⟨_, e⟩
  · exact absurd none filed
  · exact e

theorem closeSet_spilled (none : setCards (setAt b.sau n) = []) (short : Bool) :
    closeSet n short b = withRecord n .blank [] b := by
  rcases closeSet_cases n short b with ⟨_, e⟩ | ⟨filed, _⟩
  · exact e
  · exact absurd none filed

theorem endSet_noKey (noKey : (setAt b.sau n).title = none) : endSet n roll ordinal b = withRecord n .blank [] b := by
  unfold endSet
  simp only [noKey]
  exact changeSet_withRecord ..

theorem endSet_complete (title : (setAt b.sau n).title = some x) (complete : setComplete (setAt b.sau n) = true) :
    endSet n roll ordinal b = closeSet n false b := by
  unfold endSet
  simp only [title, complete, if_true]

theorem endSet_held (title : (setAt b.sau n).title = some x) (short : setComplete (setAt b.sau n) = false)
    (policy : (classAt b.mu x.cls).short = .hold) : endSet n roll ordinal b
      = withRecord n { setAt b.sau n with state := .held, short := true } []
        (raiseNotice (shortNotice n roll ordinal x.key (setAt b.sau n)) b) := by
  rw [← raiseNotice_withRecord, ← changeSet_withRecord]
  unfold endSet
  simp only [title, short, policy, Bool.false_eq_true, if_false]
  rfl

theorem endSet_sent (title : (setAt b.sau n).title = some x) (short : setComplete (setAt b.sau n) = false)
    (policy : (classAt b.mu x.cls).short = .send) : endSet n roll ordinal b
      = raiseNotice (shortNotice n roll ordinal x.key (setAt b.sau n)) (closeSet n true b) := by
  unfold endSet
  simp only [title, short, policy, Bool.false_eq_true, if_false]
  rfl

/-- With nothing in the backlog and nothing joining it, or with no entry free, nothing is placed. -/
theorem drainBacklog_withRecord {r : SetRecord} {items : List BacklogItem}
    (still : (b.sau.backlog = [] ∧ items = []) ∨ entryFree b = false) :
    drainBacklog (withRecord n r items b) = withRecord n r items b := by
  refine drainBacklog_none (still.imp (fun quiet => ?_) id)
  show b.sau.backlog ++ items = []
  rw [quiet.1, quiet.2, List.append_nil]

end EndSet

/-! ### Nothing but the SAU changes (R77, R125) -/

section SauOnly
variable {s u : State}

theorem sauOnly_targetTaken (s : State) : SauOnly s (targetTaken s) where
  rest := rfl
  fli := by
    show takeHead s.fli = { takeHead s.fli with notices := (takeHead s.fli).notices }
    rfl
  mu := rfl

theorem SauOnly.raise (h : SauOnly s u) (note : Notice) : SauOnly s (raiseNotice note u) := by
  rcases raiseNotice_cases note u with ⟨_, e⟩ | ⟨_, e⟩ <;> rw [e]
  · exact ⟨congrArg (fun v => { v with fli := { u.fli with notices := u.fli.notices ++ [note] } }) h.rest,
      congrArg (fun f : Fli => { f with notices := u.fli.notices ++ [note] }) h.fli, h.mu⟩
  · exact ⟨congrArg (fun v => { v with mu := { u.mu with sticky := { u.mu.sticky with noticesLost := true } } }) h.rest,
      h.fli, h.mu⟩

theorem SauOnly.withRecord (h : SauOnly s u) (n : Nat) (r : SetRecord) (items : List BacklogItem) :
    SauOnly s (withRecord n r items u) :=
  ⟨congrArg (Machine.withRecord n r items) h.rest, h.fli, h.mu⟩

theorem SauOnly.passMode (h : SauOnly s u) (pass : Bool) : SauOnly s (setPassMode pass u) :=
  ⟨congrArg (setPassMode pass) h.rest, h.fli, h.mu⟩

/-- R125: SET_SHORT is the one notice that the end of a short set raises. -/
theorem setShortRaised {x : Target} {n : Nat} {k : Title} {r : SetRecord} {v : State}
    (fli : v.fli = (raiseNotice (shortNotice n x.roll x.ordinal k.key r) (targetTaken s)).fli) :
    SetShortRaised s v x n k r := by
  intro room
  have held : (targetTaken s).fli.notices = s.fli.notices := takeHead_notices s.fli
  rw [fli, raiseNotice_room (b := targetTaken s) _ (by rw [held]; exact room)]
  show (targetTaken s).fli.notices ++ _ = _
  rw [held]
  rfl

end SauOnly

/-! ### END (R125) -/

section End
variable {s : State} {x : Target} {n : Nat} {r : SetRecord} {items : List BacklogItem}

theorem endTargetOp_current (current : currentSet s.sau = some n) :
    endTargetOp x (targetTaken s) = setPassMode false (drainBacklog (endSet n x.roll x.ordinal (targetTaken s))) := by
  have stands : currentSet (targetTaken s).sau = some n := current
  unfold endTargetOp
  simp only [stands]

/-- END of a set that leaves nothing to place now, and raises nothing. -/
theorem end_quiet (head : headTarget .endSet s = some x) (noFrame : ∀ f, s.rs.intake ≠ .receiving f)
    (current : currentSet s.sau = some n) (still : (s.sau.backlog = [] ∧ items = []) ∨ entryFree s = false)
    (ended : endSet n x.roll x.ordinal (targetTaken s) = withRecord n r items (targetTaken s)) :
    ∃ u t, exec .endTarget s = .next t ∧ SetsOff u t ∧ SauOnly s u ∧ u.fli = takeHead s.fli
      ∧ u.sau = { s.sau with sets := s.sau.sets.set n r, backlog := s.sau.backlog ++ items, passMode := false } := by
  obtain ⟨t, completes, sets⟩ := endTarget_completes head noFrame
  rw [endTargetOp_current current, ended, drainBacklog_withRecord (b := targetTaken s) still] at sets
  exact ⟨_, t, completes, sets, ((sauOnly_targetTaken s).withRecord ..).passMode _, rfl, rfl⟩

/-- END of a short set that leaves nothing to place now. -/
theorem end_short {k : Title} (head : headTarget .endSet s = some x) (noFrame : ∀ f, s.rs.intake ≠ .receiving f)
    (current : currentSet s.sau = some n) (still : (s.sau.backlog = [] ∧ items = []) ∨ entryFree s = false)
    (ended : endSet n x.roll x.ordinal (targetTaken s)
      = withRecord n r items (raiseNotice (shortNotice n x.roll x.ordinal k.key (setAt s.sau n)) (targetTaken s))) :
    ∃ u t, exec .endTarget s = .next t ∧ SetsOff u t ∧ SauOnly s u ∧ SetShortRaised s u x n k (setAt s.sau n)
      ∧ u.sau = { s.sau with sets := s.sau.sets.set n r, backlog := s.sau.backlog ++ items, passMode := false } := by
  obtain ⟨t, completes, sets⟩ := endTarget_completes head noFrame
  generalize raised : raiseNotice (shortNotice n x.roll x.ordinal k.key (setAt s.sau n)) (targetTaken s) = b at ended
  have sau : b.sau = s.sau := by rw [← raised, raiseNotice_sau]; rfl
  have free : entryFree b = entryFree s := by unfold entryFree; rw [← raised, raiseNotice_cs]; rfl
  have only : SauOnly s b := raised ▸ (sauOnly_targetTaken s).raise _
  rw [endTargetOp_current current, ended, drainBacklog_withRecord (b := b) (by rw [sau, free]; exact still)] at sets
  refine ⟨_, t, completes, sets, (only.withRecord ..).passMode _, setShortRaised (congrArg State.fli raised).symm, ?_⟩
  rw [← sau]
  rfl

end End

/-- What END makes of the current set before the backlog is served (R125). -/
theorem endSet_ended (s : State) (x : Target) (n : Nat) : ∃ w r items, w = endSet n x.roll x.ordinal (targetTaken s)
    ∧ EndedAs s.mu n (setAt s.sau n) r items ∧ SauOnly s w
    ∧ w.sau = { s.sau with sets := s.sau.sets.set n r, backlog := s.sau.backlog ++ items }
    ∧ ((setAt s.sau n).title = none ∨ setComplete (setAt s.sau n) = true → w.fli = takeHead s.fli)
    ∧ ∀ k, (setAt s.sau n).title = some k → setComplete (setAt s.sau n) = false →
        SetShortRaised s w x n k (setAt s.sau n) := by
  obtain ⟨r, items, ended, ⟨quiet, e⟩ | ⟨k, title, short, e⟩⟩ := endSet_cases n x.roll x.ordinal (targetTaken s)
  · refine ⟨_, r, items, rfl, ended, ?_, ?_, fun _ => ?_, fun k title short => ?_⟩
    · rw [e]; exact (sauOnly_targetTaken s).withRecord ..
    · rw [e]; rfl
    · rw [e]; rfl
    · rcases quiet with noKey | complete
      · exact absurd (noKey.symm.trans title) nofun
      · exact absurd (short.symm.trans complete) nofun
  · refine ⟨_, r, items, rfl, ended, ?_, ?_, fun quiet => ?_, fun k' title' _ => ?_⟩
    · rw [e]; exact ((sauOnly_targetTaken s).withRecord ..).raise _
    · rw [e, raiseNotice_sau]; rfl
    · rcases quiet with noKey | complete
      · exact absurd (noKey.symm.trans title) nofun
      · exact absurd (short.symm.trans complete) nofun
    · cases Option.some.inj (title.symm.trans title')
      rw [raiseNotice_withRecord] at e
      exact setShortRaised ((congrArg State.fli e).trans rfl)

/-- Settles O32: each clause is the equation of `endSet` for what END finds, and the last one is `endSet_ended`. -/
theorem endEndsCurrentSet : Obligations.EndEndsCurrentSet := by
  intro s x head noFrame
  obtain ⟨t, completes, sets⟩ := endTarget_completes head noFrame
  refine ⟨fun noCurrent => ?none, ?current⟩
  case none =>
    have effect : endTargetOp x (targetTaken s) = setPassMode false (targetTaken s) := by
      have stands : currentSet (targetTaken s).sau = none := noCurrent
      unfold endTargetOp
      simp only [stands]
    rw [effect] at sets
    exact ⟨_, t, completes, sets, (sauOnly_targetTaken s).passMode _, rfl, rfl⟩
  case current =>
    rintro n r current rfl
    refine ⟨fun still => ⟨fun noKey => ?noKey, fun k title complete none => ?spilled, fun k title short policy => ?held,
      fun k title short policy none => ?sheetless⟩, fun full => ⟨fun k title filed complete => ?closed,
      fun k title filed short policy => ?sent⟩, ?every⟩
    case noKey =>
      obtain ⟨u, t, completes, sets, only, fli, sau⟩ := end_quiet (items := []) head noFrame current
        (still.imp (⟨·, rfl⟩) id) (endSet_noKey (b := targetTaken s) noKey)
      exact ⟨u, t, completes, sets, only, by rw [sau, List.append_nil], fli⟩
    case spilled =>
      obtain ⟨u, t, completes, sets, only, fli, sau⟩ := end_quiet (items := []) head noFrame current
        (still.imp (⟨·, rfl⟩) id)
        ((endSet_complete (b := targetTaken s) title complete).trans (closeSet_spilled (b := targetTaken s) none false))
      exact ⟨u, t, completes, sets, only, by rw [sau, List.append_nil], fli⟩
    case held =>
      obtain ⟨u, t, completes, sets, only, raised, sau⟩ := end_short (items := []) head noFrame current
        (still.imp (⟨·, rfl⟩) id) (endSet_held (b := targetTaken s) title short policy)
      exact ⟨u, t, completes, sets, only, raised, by rw [sau, List.append_nil]; rfl⟩
    case sheetless =>
      have ended := endSet_sent (b := targetTaken s) (roll := x.roll) (ordinal := x.ordinal) title short policy
      rw [closeSet_spilled (b := targetTaken s) none, raiseNotice_withRecord] at ended
      obtain ⟨u, t, completes, sets, only, raised, sau⟩ := end_short (items := []) head noFrame current
        (still.imp (⟨·, rfl⟩) id) ended
      exact ⟨u, t, completes, sets, only, raised, by rw [sau, List.append_nil]⟩
    case closed =>
      obtain ⟨u, t, completes, sets, only, fli, sau⟩ := end_quiet head noFrame current (.inr full)
        ((endSet_complete (b := targetTaken s) title complete).trans (closeSet_filed (b := targetTaken s) filed false))
      exact ⟨u, t, completes, sets, only, fli, sau⟩
    case sent =>
      have ended := endSet_sent (b := targetTaken s) (roll := x.roll) (ordinal := x.ordinal) title short policy
      rw [closeSet_filed (b := targetTaken s) filed, raiseNotice_withRecord] at ended
      exact end_short head noFrame current (.inr full) ended
    case every =>
      obtain ⟨w, r, items, effect, ended, only, sau, quiet, short⟩ := endSet_ended s x n
      rw [endTargetOp_current current, ← effect] at sets
      exact ⟨w, _, t, r, items, completes, sets, ended, only, sau, quiet, short, rfl⟩

end Sys2Proof.Machine
end

section
/-! SUPPORT. The backlog as it is served, and BATCH END: the set's job, the group's job and the marker in their order (R64, R92,
R117, R118, R127, R130). The statement O33. -/

namespace Sys2Proof.Machine

-- Checked one after another, as the tests are, to hold the memory and the threads down.
set_option Elab.async false

/-! ### The job of a record (R130) -/

/-- The sticky flags aside, the same tables. -/
theorem classAt_of_body {mu mu' : Mu} (body : mu'.body = mu.body) (n : Nat) : classAt mu' n = classAt mu n := by
  show classAt mu'.body n = classAt mu.body n
  rw [body]

/-- R28: the job captures from the class tables alone, and of the record its title, its filed sheets and SPILL. -/
theorem SetJobOf.congr {mu mu' : Mu} {r r' : SetRecord} {short : Bool} {j : Job} (h : SetJobOf mu r short j)
    (body : mu'.body = mu.body) (title : r'.title = r.title) (sheets : r'.sheets = r.sheets) (spill : r'.spill = r.spill) :
    SetJobOf mu' r' short j := by
  constructor
  · exact h.kind
  · rw [title]; exact h.cls
  · rw [title]; exact h.key
  · rw [title]; exact h.count
  · rw [setCards, sheets]; exact h.cards
  · rw [classAt_of_body body]; exact h.captured
  · rw [spill]; exact h.flags
  · exact h.progress

/-- R92: only the slots of the states before and after count. -/
theorem SlotsQueued.congr {s u s' u' : State} {id : Nat} {cards : List CardPos} (h : SlotsQueued s u id cards)
    (before : s'.sc.slots = s.sc.slots) (after : u'.sc.slots = u.sc.slots) : SlotsQueued s' u' id cards := by
  constructor
  · intro i c chip named filed inside
    rw [slotAt_of_slots before] at filed
    rw [before] at inside
    rw [slotAt_of_slots after]
    exact h.queued i c chip named filed inside
  · intro n apart
    rw [slotAt_of_slots before, slotAt_of_slots after]
    exact h.others n apart

/-! ### One item after another (R118) -/

section Drain
variable {s v : State} {n : Nat} {rest : List BacklogItem}

/-- What a change sets off with an entry free is what the serving of the backlog begins with. -/
theorem drainBacklog_step (waits : s.sau.backlog ≠ []) (free : entryFree s = true) (step : settleStep s = some v) :
    drainBacklog s = drainBacklog v := by
  rw [settleStep_placeHead waits free, Option.some.injEq] at step
  rw [drainBacklog_head waits free, step]

theorem drainBacklog_item {x : BacklogItem} (backlog : s.sau.backlog = x :: rest) (free : entryFree s = true)
    (step : settleStep s = some v) : drainBacklog s = drainBacklog v :=
  drainBacklog_step (by rw [backlog]; exact nofun) free step

/-- R118, R130: a record that becomes CLOSED with an entry free and nothing before it is placed at once, and is EMPTY. -/
theorem drainBacklog_closed {short : Bool} (inside : n < s.sau.sets.length) (empty : s.sau.backlog = [])
    (free : entryFree s = true) : ∃ v j,
      drainBacklog (withRecord n { setAt s.sau n with state := .closed, short := short } [.set n] s) = v
      ∧ SetJobOf s.mu (setAt s.sau n) short j
      ∧ v = { s with
          sau := { s.sau with sets := s.sau.sets.set n .blank }
          cs := { s.cs with queue := s.cs.queue ++ [.job j], nextId := s.cs.nextId + 1 }
          sc := { s.sc with slots := v.sc.slots, askAgain := true } }
      ∧ SlotsQueued s v j.id (setCards (setAt s.sau n)) := by
  generalize ends : withRecord n { setAt s.sau n with state := .closed, short := short } [.set n] s = w
  have backlog : w.sau.backlog = [.set n] := by
    rw [← ends]
    show s.sau.backlog ++ [.set n] = [.set n]
    rw [empty, List.nil_append]
  have wFree : entryFree w = true := by rw [← ends]; exact free
  have record : setAt w.sau n = { setAt s.sau n with state := .closed, short := short } := by
    rw [← ends]
    exact setAt_putSet (sau := s.sau) inside
  obtain ⟨v, j, step, job, effect, queued⟩ := set_follows wFree backlog
  rw [record] at job queued
  have last : drainBacklog v = v := drainBacklog_none (.inl (by rw [effect]))
  refine ⟨v, j, (drainBacklog_item backlog wFree step).trans last, ?_, ?_, ?_⟩
  · rw [← ends] at job
    exact job.congr rfl rfl rfl rfl
  · rw [effect, ← ends]
    simp only [withRecord, List.set_set, empty]
  · rw [← ends] at queued
    exact queued.congr rfl rfl

/-- R64, R127: the marker of a BATCH END that waits for it stands at the queue's tail, and the intake is IDLE. -/
theorem drainBacklog_marker {x : Target} (backlog : s.sau.backlog = [.marker]) (free : entryFree s = true)
    (waits : s.rs.intake = .waitTarget x) : drainBacklog s = { s with
      sau := { s.sau with backlog := [] }, cs := { s.cs with queue := s.cs.queue ++ [.marker] }
      rs := { s.rs with intake := .idle } } := by
  obtain ⟨v, step, effect, ended, _⟩ := marker_follows free backlog
  rw [ended x waits] at effect
  rw [drainBacklog_item backlog free step, effect]
  exact drainBacklog_none (.inl rfl)

/-- The serving of the backlog down to `rest`: these jobs join the queue, and the intake and the tables stand. -/
structure Served (s v : State) (rest : List BacklogItem) (jobs : List Job) : Prop where
  drains : drainBacklog s = drainBacklog v
  queue  : v.cs.queue = s.cs.queue ++ jobs.map Entry.job
  one    : jobs.length ≤ 1
  rs     : v.rs = s.rs
  mu     : v.mu = s.mu

/-- R130: the item of an ended set, where there is one, with an entry free for it. -/
theorem served_setItems {items : List BacklogItem} (one : items = [] ∨ ∃ n, items = [.set n])
    (backlog : s.sau.backlog = items ++ rest) (free : entryFree s = true) : ∃ v jobs, Served s v rest jobs
      ∧ v.sau = { s.sau with sets := v.sau.sets, backlog := rest }
      ∧ (items = [] → jobs = [] ∧ v.sau.sets = s.sau.sets)
      ∧ ∀ n, items = [.set n] → v.sau.sets = s.sau.sets.set n .blank
          ∧ ∃ j, jobs = [j] ∧ SetJobOf s.mu (setAt s.sau n) (setAt s.sau n).short j := by
  rcases one with rfl | ⟨n, rfl⟩
  · exact ⟨s, [], ⟨rfl, (List.append_nil _).symm, Nat.zero_le _, rfl, rfl⟩, by rw [← show s.sau.backlog = rest from backlog],
      fun _ => ⟨rfl, rfl⟩, nofun⟩
  · obtain ⟨v, j, step, job, effect, _⟩ := set_follows free backlog
    refine ⟨v, [j], ⟨drainBacklog_item backlog free step, by rw [effect]; rfl, Nat.le_refl _, by rw [effect], by rw [effect]⟩,
      by rw [effect]; rfl, nofun, ?_⟩
    rintro _ ⟨⟩
    exact ⟨by rw [effect], j, rfl, job⟩

/-- R130: the CLOSED group, where it stands in the backlog. -/
theorem served_groupItem (backlog : s.sau.backlog = .group :: rest) (free : entryFree s = true) :
    ∃ v, Served s v rest [groupJob s] ∧ v.sau = { s.sau with group := [], groupClosed := false, backlog := rest } := by
  obtain ⟨v, j, step, rfl, effect, _⟩ := group_follows free backlog
  exact ⟨v, ⟨drainBacklog_item backlog free step, by rw [effect]; rfl, Nat.le_refl _, by rw [effect], by rw [effect]⟩,
    by rw [effect]⟩

end Drain

/-! ### BATCH END up to its marker's joining the backlog (R127) -/

/-- The item that an ended set leaves, if any, is its own. -/
theorem EndedAs.items {mu : Mu} {n : Nat} {r r' : SetRecord} {items : List BacklogItem} (h : EndedAs mu n r r' items) :
    items = [] ∨ (items = [.set n] ∧ r' = { r with state := .closed, short := !setComplete r }) := by
  cases h with
  | noKey | allSpilled | held => exact .inl rfl
  | complete x title complete filed => exact .inr ⟨rfl, by rw [complete]; rfl⟩
  | sent x title short policy filed => exact .inr ⟨rfl, by rw [short]; rfl⟩

theorem openSetEnded_items {s : State} {sets : List SetRecord} {items : List BacklogItem} (h : OpenSetEnded s sets items) :
    items = [] ∨ ∃ n, items = [.set n] ∧ currentSet s.sau = some n
      ∧ sets = s.sau.sets.set n { setAt s.sau n with state := .closed, short := !setComplete (setAt s.sau n) } := by
  unfold OpenSetEnded at h
  split at h
  · exact .inl h.2
  · rename_i n current
    obtain ⟨r, ended, rfl⟩ := h
    rcases ended.items with none | ⟨one, rfl⟩
    · exact .inl none
    · exact .inr ⟨n, one, current, rfl⟩

/-- BATCH END has been carried out up to the serving of the backlog, with the marker in it. -/
structure BatchEnding (s : State) (x : Target) (sets : List SetRecord) (items : List BacklogItem) (v : State) : Prop where
  ended : OpenSetEnded s sets items
  sau   : v.sau = batchSau sets items s.sau
  rs    : v.rs = { s.rs with intake := .waitTarget x }
  cs    : v.cs = s.cs
  cli   : v.cli = s.cli
  dm    : v.dm = s.dm
  body  : v.mu.body = s.mu.body
  slots : v.sc.slots = s.sc.slots
  short : ∀ n k, currentSet s.sau = some n → (setAt s.sau n).title = some k → setComplete (setAt s.sau n) = false →
    SetShortRaised s v x n k (setAt s.sau n)
  quiet : (∀ n, currentSet s.sau = some n → (setAt s.sau n).title = none ∨ setComplete (setAt s.sau n) = true) →
    v.fli = takeHead s.fli

theorem batchEnding (s : State) (x : Target) : ∃ v sets items, batchEndOp x (targetTaken s) = drainBacklog v
    ∧ BatchEnding s x sets items v := by
  obtain ⟨sets, items, again, ended, ⟨quiet, e⟩ | ⟨n, k, current, title, short, e⟩⟩ := endBatch_cases x (targetTaken s)
  · refine ⟨_, sets, items, rfl, ended, ?_, ?_, ?_, ?_, ?_, ?_, ?_, fun n k current title short => ?_, fun _ => ?_⟩
    all_goals try (rw [e]; rfl)
    rcases quiet n current with noKey | complete
    · exact absurd (noKey.symm.trans title) nofun
    · exact absurd (short.symm.trans complete) nofun
  · refine ⟨_, sets, items, rfl, ended, ?_, ?_, ?_, ?_, ?_, ?_, ?_, fun n' k' current' title' _ => ?_, fun quiet => ?_⟩
    · rw [e]; exact raiseNotice_sau ..
    · rw [e, raiseNotice_rs]; rfl
    · rw [e]; exact raiseNotice_cs ..
    · rw [e]; exact raiseNotice_cli ..
    · rw [e]; exact raiseNotice_dm ..
    · rw [e]; exact raiseNotice_muBody ..
    · rw [e, raiseNotice_sc]; rfl
    · cases Option.some.inj (current.symm.trans current')
      cases Option.some.inj (title.symm.trans title')
      have fli := raiseNotice_fli_congr (s := { targetTaken s with
        sau := batchSau sets items s.sau, sc := { s.sc with askAgain := again } }) (t := targetTaken s) rfl
        (shortNotice n x.roll x.ordinal k.key (setAt s.sau n))
      exact setShortRaised ((congrArg State.fli e).trans fli)
    · rcases quiet n current with noKey | complete
      · exact absurd (noKey.symm.trans title) nofun
      · exact absurd (short.symm.trans complete) nofun

section BatchEnd
variable {s v : State} {x : Target} {sets : List SetRecord} {items : List BacklogItem}

/-- With no current set, no COLLECTING group and an empty backlog the marker stands alone in it. -/
theorem BatchEnding.alone (h : BatchEnding s x sets items v) (noCurrent : currentSet s.sau = none)
    (noGroup : groupState s.sau ≠ .collecting) (empty : s.sau.backlog = []) :
    v.sau = { s.sau with passMode := false, backlog := [.marker] } := by
  obtain ⟨rfl, rfl⟩ : sets = s.sau.sets ∧ items = [] := by
    have ended := h.ended
    unfold OpenSetEnded at ended
    simpa only [noCurrent] using ended
  rw [h.sau]
  simp only [batchSau, if_neg noGroup, empty, List.append_nil, List.nil_append]

theorem entryFree_of_length {n : Nat} (length : s.cs.queue.length = n) (room : n < 32) : entryFree s = true := by
  rw [← length] at room
  exact decide_eq_true room

/-- R118, R127, R130: the group's job, where there is a group to close, and then the marker. -/
theorem served_groupMarker {grouped : Bool} (backlog : s.sau.backlog = (if grouped then [.group] else []) ++ [.marker])
    (waits : s.rs.intake = .waitTarget x) (room : s.cs.queue.length ≤ 30) : ∃ u jobs, drainBacklog s = u
      ∧ u.cs.queue = s.cs.queue ++ jobs.map Entry.job ++ [.marker] ∧ u.rs = { s.rs with intake := .idle }
      ∧ (grouped = false → jobs = [] ∧ u.sau = { s.sau with backlog := [] })
      ∧ (grouped = true → jobs = [groupJob s]
          ∧ u.sau = { s.sau with group := [], groupClosed := false, backlog := [] }) := by
  cases grouped with
  | false =>
    have free : entryFree s = true := entryFree_of_length rfl (by omega)
    exact ⟨_, [], drainBacklog_marker backlog free waits, by rw [List.map_nil, List.append_nil], rfl,
      fun _ => ⟨rfl, rfl⟩, nofun⟩
  | true =>
    obtain ⟨v, served, sau⟩ := served_groupItem (rest := [.marker]) backlog (entryFree_of_length rfl (by omega))
    have free : entryFree v = true := by
      refine entryFree_of_length rfl ?_
      rw [served.queue, List.length_append, List.length_map, List.length_singleton]
      omega
    have waits' : v.rs.intake = .waitTarget x := by rw [served.rs, waits]
    refine ⟨_, [groupJob s], served.drains.trans (drainBacklog_marker (by rw [sau]) free waits'), ?_, ?_, nofun,
      fun _ => ⟨rfl, ?_⟩⟩
    · rw [← served.queue]
    · rw [← served.rs]
    · simp only [sau]

end BatchEnd

/-- Settles O33: BATCH END up to its marker is `batchEnding`; with entries free `served_setItems` and `served_groupMarker` place
what stands in the backlog, in its order. -/
theorem batchEndPlacesMarker : Obligations.BatchEndPlacesMarker := by
  refine ⟨fun s x head noFrame => ?_, fun s => ⟨drainBacklog_none, fun v => drainBacklog_step⟩⟩
  obtain ⟨t, completes, sets'⟩ := batchEnd_completes head noFrame
  obtain ⟨v, sets, items, effect, h⟩ := batchEnding s x
  rw [effect] at sets'
  have waits : v.rs.intake = .waitTarget x := by rw [h.rs]
  refine ⟨fun noCurrent noGroup empty => ?alone, ⟨v, t, sets, items, completes, sets', h.ended, h.sau, h.rs, h.cs, h.cli,
    h.dm, h.slots, h.short, h.quiet⟩, fun empty room => ?placed⟩
  case alone =>
    have sau := h.alone noCurrent noGroup empty
    have fli : v.fli = takeHead s.fli := h.quiet fun n current => absurd (noCurrent.symm.trans current) nofun
    have sameFree : entryFree v = entryFree s := by unfold entryFree; rw [h.cs]
    refine ⟨fun free => ?_, fun full => ?_⟩
    · rw [drainBacklog_marker (by rw [sau]) (sameFree.trans free) waits] at sets'
      refine ⟨_, t, completes, sets', by simp only [h.cs], by simp only [h.rs], ?_, fli⟩
      simp only [sau, empty]
    · rw [drainBacklog_none (.inr (sameFree.trans full))] at sets'
      exact ⟨v, t, completes, sets', h.cs, h.rs, sau, fli⟩
  case placed =>
    have grouped : (if groupState s.sau = .collecting then [BacklogItem.group] else [])
        = if decide (groupState s.sau = .collecting) then [.group] else [] := by simp only [decide_eq_true_eq]
    have backlog : v.sau.backlog
        = items ++ ((if decide (groupState s.sau = .collecting) then [.group] else []) ++ [.marker]) := by
      rw [h.sau, batchSau, grouped, empty, List.nil_append, List.append_assoc]
    have queue : v.cs.queue.length = s.cs.queue.length := by rw [h.cs]
    obtain ⟨w, setJobs, served, sau, none, one⟩ := served_setItems
      ((openSetEnded_items h.ended).imp id fun ⟨n, item, _⟩ => ⟨n, item⟩) backlog (entryFree_of_length queue (by omega))
    have room' : w.cs.queue.length ≤ 30 := by
      rw [served.queue, List.length_append, List.length_map, queue]
      have := served.one
      omega
    obtain ⟨u, groupJobs, drained, tail, rs, apart, closed⟩ := served_groupMarker (by rw [sau])
      (by rw [served.rs, waits]) room'
    rw [served.drains, drained] at sets'
    have body : w.mu.body = s.mu.body := by rw [served.mu, h.body]
    have records : u.sau.sets = w.sau.sets := by
      by_cases collecting : groupState s.sau = .collecting
      · rw [(closed (decide_eq_true collecting)).2]
      · rw [(apart (decide_eq_false collecting)).2]
    refine ⟨u, t, sets, items, setJobs, groupJobs, completes, sets', h.ended, ?_, ?_, fun noItem => ?_, fun n item => ?_,
      fun noGroup => ?_, fun collecting => ?_⟩
    · rw [rs, served.rs, h.rs]
    · rw [tail, served.queue, h.cs, List.map_append, List.append_assoc s.cs.queue]
    · obtain ⟨noJob, stand⟩ := none noItem
      exact ⟨noJob, by rw [records, stand, h.sau]; rfl⟩
    · obtain ⟨emptied, j, job, captured⟩ := one n item
      refine ⟨by rw [records, emptied, h.sau]; rfl, j, job, ?_⟩
      rcases openSetEnded_items h.ended with noItem | ⟨m, item', current, ended⟩
      · exact absurd (noItem.symm.trans item) nofun
      · cases item'.symm.trans item
        have record : setAt v.sau n
            = { setAt s.sau n with state := .closed, short := !setComplete (setAt s.sau n) } := by
          rw [h.sau, ended]
          exact setAt_putSet (sau := s.sau) (currentSet_inside current)
        rw [record] at captured
        exact captured.congr h.body.symm rfl rfl rfl
    · obtain ⟨noJob, stands⟩ := apart (decide_eq_false noGroup)
      refine ⟨noJob, ?_⟩
      rw [stands, sau, h.sau]
      simp only [batchSau, if_neg noGroup, empty]
    · obtain ⟨job, stands⟩ := closed (decide_eq_true collecting)
      have group : w.sau.group = s.sau.group := by rw [sau, h.sau]; rfl
      refine ⟨?_, groupJob w, job, rfl, rfl, rfl, rfl, ?_, ?_, rfl, rfl, rfl, rfl, ?_, fun i g named => ?_⟩
      · rw [stands, sau, h.sau]
        simp only [batchSau, empty]
      · rw [← classAt_of_body body]; rfl
      · rw [← classAt_of_body body]; rfl
      · exact (groupCards_length ..).trans (by rw [group])
      · rw [Nat.add_comm i 1]
        exact groupCards_getElem? 1 (by rw [group]; exact named)

end Sys2Proof.Machine
end

section
/-! SUPPORT. SET RELEASE and SET DISCARD as whole commands: their checks, and what becomes of the record, its backlog item and its
slots (R98, R118, R131, R132). The statements O46 and O47. -/

namespace Sys2Proof.Machine

-- Checked one after another, as the tests are, to hold the memory and the threads down.
set_option Elab.async false

variable {s : State} {tag : Byte} {n : Nat}

/-! ### The checks (R131) -/

theorem setRefusal_outside (outside : 8 ≤ n) : setRefusal n s = some .badPosition := if_pos outside

theorem setRefusal_busy (inside : n < 8) (busy : openDestination s = some (.set n) ∨ (setAt s.sau n).state = .opened) :
    setRefusal n s = some .notNow := by
  unfold setRefusal
  rw [if_neg (show ¬ Config.setCount ≤ n from Nat.not_le.2 inside)]
  by_cases destination : openDestination s = some (.set n)
  · exact if_pos destination
  · rw [if_neg destination]
    exact if_pos (busy.resolve_left destination)

theorem setRefusal_passed (inside : n < 8) (apart : openDestination s ≠ some (.set n))
    (notOpen : (setAt s.sau n).state ≠ .opened) : setRefusal n s = none := by
  unfold setRefusal
  rw [if_neg (show ¬ Config.setCount ≤ n from Nat.not_le.2 inside), if_neg apart, if_neg notOpen]

/-- R170: the reply stands at the end of the buffer. -/
theorem taken_replies (s : State) : (taken s).fli.replies = s.fli.replies := takeHead_replies s.fli

/-! ### SET RELEASE (R131) -/

theorem exec_setRelease_taken (head : mgmtHead s = some (tag, .setRelease n)) :
    exec .setRelease s = .next (finish (setReleaseOp tag n (taken s))) := by
  have found : headSetRelease s = some (tag, n) := by simp only [headSetRelease, head]
  rw [exec_setRelease, found]
  rfl

theorem setRelease_refused (head : mgmtHead s = some (tag, .setRelease n)) {why : Reason}
    (refused : setRefusal n (taken s) = some why) :
    ∃ t, exec .setRelease s = .next t ∧ EndOfCommand (answeredBy tag 0x44 (.refused why) s) t := by
  refine completes_command (exec_setRelease_taken head) ?_
  unfold setReleaseOp
  simp only [refused]
  rfl

/-- A SET RELEASE that passes its checks: the record is released as `v`, and the reply names its state then. -/
theorem setRelease_passed (head : mgmtHead s = some (tag, .setRelease n)) (passed : setRefusal n (taken s) = none)
    {v : State} (released : releaseSet n (taken s) = v) {st : SetState} (state : (setAt v.sau n).state = st) :
    ∃ t, exec .setRelease s = .next t ∧ SetsOff (placeReply tag 0x44 (.ok (.setState st)) v) t := by
  have effect : setReleaseOp tag n (taken s) = settle (placeReply tag 0x44 (.ok (.setState st)) v) := by
    unfold setReleaseOp
    simp only [passed, released, state]
  exact completes_setsOff ((exec_setRelease_taken head).trans (by rw [effect])) rfl

theorem releaseSet_held (held : (setAt s.sau n).state = .held) : releaseSet n s = drainBacklog (closeSet n true s) :=
  if_pos held

theorem releaseSet_other (other : (setAt s.sau n).state ≠ .held) : releaseSet n s = s := if_neg other

/-- Settles O46: a HELD record is released by `closeSet`, and placed at once by `drainBacklog_closed`. -/
theorem setReleaseByState : Obligations.SetReleaseByState := by
  intro s tag n head
  refine ⟨fun outside => setRelease_refused head (setRefusal_outside outside),
    fun inside busy => setRelease_refused head (setRefusal_busy (s := taken s) inside busy),
    fun inside apart => ⟨fun st state other => ?stands, fun held filed full => ?waits, fun held filed free empty => ?placed,
      fun held spilled empty => ?spilled⟩⟩
  case stands =>
    have passed := setRefusal_passed (s := taken s) inside apart (show (setAt s.sau n).state ≠ .opened by
      rw [state]; rcases other with rfl | rfl <;> exact nofun)
    have released : releaseSet n (taken s) = taken s := releaseSet_other (s := taken s)
      (show (setAt s.sau n).state ≠ .held by rw [state]; rcases other with rfl | rfl <;> exact nofun)
    exact setRelease_passed head passed released state
  all_goals
    have passed := setRefusal_passed (s := taken s) inside apart (fun opened => absurd (held.symm.trans opened) nofun)
    have released := releaseSet_held (s := taken s) held
    have inside : n < s.sau.sets.length := setAt_notEmpty_inside (by rw [held]; exact nofun)
  case waits =>
    rw [closeSet_filed (b := taken s) filed, drainBacklog_withRecord (b := taken s) (.inr full)] at released
    obtain ⟨t, completes, sets⟩ := setRelease_passed head passed released
      (congrArg SetRecord.state (setAt_putSet (sau := s.sau) inside))
    exact ⟨_, t, completes, sets, congrArg (· ++ _) (taken_replies s), rfl⟩
  case placed =>
    rw [closeSet_filed (b := taken s) filed] at released
    obtain ⟨v, j, drained, job, effect, _⟩ := drainBacklog_closed (s := taken s) (short := true) inside empty free
    have emptied : setAt v.sau n = .blank := by rw [effect]; exact setAt_putSet (sau := s.sau) inside
    obtain ⟨t, completes, sets⟩ := setRelease_passed head passed (released.trans drained) (congrArg SetRecord.state emptied)
    refine ⟨_, t, j, completes, sets, ?_, ?_, ?_, job.kind, job.flags.1, job.flags.2, job.cards, job.key, job.progress⟩
    · rw [placeReply_fli, effect]
      exact congrArg (· ++ _) (taken_replies s)
    · rw [placeReply_sau, effect]; rfl
    · rw [placeReply_cs, effect]; rfl
  case spilled =>
    rw [closeSet_spilled (b := taken s) spilled, drainBacklog_withRecord (b := taken s) (.inl ⟨empty, rfl⟩)] at released
    obtain ⟨t, completes, sets⟩ := setRelease_passed head passed released
      (congrArg SetRecord.state (setAt_putSet (sau := s.sau) inside))
    refine ⟨_, t, completes, sets, congrArg (· ++ _) (taken_replies s), ?_, rfl⟩
    simp only [placeReply_sau, withRecord, List.append_nil]
    rfl

/-! ### The slots of a discarded record (R92, R98, R132) -/

section FreeCards
variable {sc : Sc} {k : Nat}

theorem releaseSlot_size (n : Nat) (before : ChipState) (sc : Sc) :
    (releaseSlot n before sc).slots.length = sc.slots.length := by
  unfold releaseSlot
  split
  · exact setSlot_slots_length ..
  · rfl

theorem releaseSlot_banks (n : Nat) (before : ChipState) (sc : Sc) : (releaseSlot n before sc).banks = sc.banks := by
  unfold releaseSlot
  split <;> rfl

theorem releaseSlot_other {before : ChipState} (apart : n ≠ k) : slotAt (releaseSlot n before sc) k = slotAt sc k := by
  unfold releaseSlot
  split
  · exact slotAt_setSlot_other _ apart
  · rfl

theorem releaseSlot_frees {before : ChipState} (stands : (slotAt sc n).inState before = true)
    (inside : n < sc.slots.length) (enabled : bankOf n < sc.banks) : slotAt (releaseSlot n before sc) n = .free := by
  unfold releaseSlot
  rw [if_pos stands]
  exact slotAt_freeSlot inside enabled

/-- A slot that is FREE stays so whatever chip is given back. -/
theorem releaseSlot_free {before : ChipState} (free : slotAt sc k = .free) : slotAt (releaseSlot n before sc) k = .free := by
  by_cases apart : n = k
  · subst apart
    unfold releaseSlot
    rw [free]
    exact free
  · rw [releaseSlot_other apart, free]

theorem freeCards_others {cards : List CardPos} (apart : ∀ c, c ∈ cards → c.slot ≠ k) (sc : Sc) :
    slotAt (freeCards cards sc) k = slotAt sc k := by
  induction cards generalizing sc with
  | nil => rfl
  | cons c cs ih =>
    rw [freeCards, ih (fun d later => apart d (List.mem_cons_of_mem _ later)),
      releaseSlot_other (apart c List.mem_cons_self)]

theorem freeCards_free (cards : List CardPos) {sc : Sc} (free : slotAt sc k = .free) :
    slotAt (freeCards cards sc) k = .free := by
  induction cards generalizing sc with
  | nil => exact free
  | cons c cs ih => exact ih (releaseSlot_free free)

theorem freeCards_frees {cards : List CardPos} {c : CardPos} (named : c ∈ cards) (inside : c.slot < sc.slots.length)
    (enabled : bankOf c.slot < sc.banks) (filed : (slotAt sc c.slot).inState .filed = true) :
    slotAt (freeCards cards sc) c.slot = .free := by
  induction cards generalizing sc with
  | nil => cases named
  | cons d ds ih =>
    by_cases same : d.slot = c.slot
    · exact freeCards_free ds (by rw [same]; exact releaseSlot_frees filed inside enabled)
    · have later : c ∈ ds := (List.mem_cons.1 named).resolve_left fun first => same (congrArg CardPos.slot first.symm)
      have standing : slotAt (releaseSlot d.slot .filed sc) c.slot = slotAt sc c.slot := releaseSlot_other same
      exact ih later (by rwa [releaseSlot_size]) (by rwa [releaseSlot_banks]) (by rwa [standing])

end FreeCards

/-! ### SET DISCARD (R132) -/

theorem exec_setDiscard_taken (head : mgmtHead s = some (tag, .setDiscard n)) :
    exec .setDiscard s = .next (finish (setDiscardOp tag n (taken s))) := by
  have found : headSetDiscard s = some (tag, n) := by simp only [headSetDiscard, head]
  rw [exec_setDiscard, found]
  rfl

theorem setDiscard_refused (head : mgmtHead s = some (tag, .setDiscard n)) {why : Reason}
    (refused : setRefusal n (taken s) = some why) :
    ∃ t, exec .setDiscard s = .next t ∧ EndOfCommand (answeredBy tag 0x45 (.refused why) s) t := by
  refine completes_command (exec_setDiscard_taken head) ?_
  unfold setDiscardOp
  simp only [refused]
  rfl

theorem setDiscardOp_empty (passed : setRefusal n s = none) (empty : (setAt s.sau n).state = .empty) :
    setDiscardOp tag n s = placeReply tag 0x45 (.ok (.freed 0)) s := by
  unfold setDiscardOp discardCount
  simp only [passed, empty]

theorem setDiscardOp_frees (passed : setRefusal n s = none)
    (stands : (setAt s.sau n).state = .held ∨ (setAt s.sau n).state = .closed) : setDiscardOp tag n s
      = settle (discardSet n (placeReply tag 0x45 (.ok (.freed (setCards (setAt s.sau n)).length)) s)) := by
  unfold setDiscardOp discardCount
  rcases stands with state | state <;> simp only [passed, state]

/-- Settles O47: the record by `discardSet`, and its slots by `freeCards_frees` and `freeCards_others`. -/
theorem setDiscardFrees : Obligations.SetDiscardFrees := by
  intro s tag n head
  refine ⟨fun outside => setDiscard_refused head (setRefusal_outside outside),
    fun inside busy => setDiscard_refused head (setRefusal_busy (s := taken s) inside busy),
    fun inside apart => ⟨fun empty => ?empty, fun stands => ?frees⟩⟩
  case empty =>
    have passed := setRefusal_passed (s := taken s) inside apart (fun opened => absurd (empty.symm.trans opened) nofun)
    exact completes_command (exec_setDiscard_taken head) (setDiscardOp_empty passed empty)
  case frees =>
    have passed := setRefusal_passed (s := taken s) inside apart (fun opened => by
      rcases stands with state | state <;> exact absurd (state.symm.trans opened) nofun)
    obtain ⟨t, completes, sets⟩ := completes_setsOff
      ((exec_setDiscard_taken head).trans (by rw [setDiscardOp_frees passed stands])) rfl
    refine ⟨_, t, completes, sets, congrArg (· ++ _) (taken_replies s), rfl, rfl, takeHead_notices s.fli, ?_, ?_⟩
    · intro c named inside enabled filed
      exact freeCards_frees (sc := { s.sc with askAgain := true }) named inside enabled filed
    · exact fun i others => freeCards_others (sc := { s.sc with askAgain := true }) others

end Sys2Proof.Machine
end

section
/-! SUPPORT. Sets and the group on their way to the card path: a record placed at once by END or START, START over an OPEN record
and the one that forces a HELD set out, the fill that completes a HELD set, the group's last frame, and pressure release (R114,
R118, R122, R123, R125, R126, R128, R130). The statement O54. -/

namespace Sys2Proof.Machine

-- Checked one after another, as the tests are, to hold the memory and the threads down.
set_option Elab.async false

/-! ### The first of a list's elements that satisfy a predicate -/

section First
variable {α : Type} {p : α → Bool} {v d : α}

/-- A value written over one that the predicate answers alike changes nothing. -/
theorem firstWhere_set_same (l : List α) (n i : Nat) (same : p v = p (l.getD n d)) :
    firstWhere p i (l.set n v) = firstWhere p i l := by
  induction l generalizing n i with
  | nil => rfl
  | cons x xs ih =>
    cases n with
    | zero =>
      have head : p v = p x := same
      simp only [List.set_cons_zero, firstWhere, head]
    | succ n => simp only [List.set_cons_succ, firstWhere, ih n (i + 1) same]

/-- The one value that satisfies the predicate is found. -/
theorem firstWhere_set_only (l : List α) (n i : Nat) (absent : firstWhere p i l = none) (inside : n < l.length)
    (satisfies : p v = true) : firstWhere p i (l.set n v) = some (i + n) := by
  induction l generalizing n i with
  | nil => cases inside
  | cons x xs ih =>
    unfold firstWhere at absent
    split at absent
    · cases absent
    · rename_i fails
      cases n with
      | zero => exact if_pos satisfies
      | succ n =>
        have later := ih n (i + 1) absent (Nat.lt_of_succ_lt_succ inside)
        simp only [List.set_cons_succ, firstWhere, if_neg fails, later]
        rw [Nat.add_assoc, Nat.add_comm 1]

end First

section Records
variable {sau : Sau} {n m : Nat} {r : SetRecord}

/-- R113: the change of a record that is not EMPTY into another such leaves the EMPTY ones as they are. -/
theorem emptyRecord_set (before : (setAt sau n).state ≠ .empty) (after : r.state ≠ .empty) :
    emptyRecord { sau with sets := sau.sets.set n r } = emptyRecord sau := by
  have same : r.isEmpty = (sau.sets.getD n .blank).isEmpty := by
    unfold SetRecord.isEmpty
    exact (beq_eq_false_iff_ne.2 after).trans (beq_eq_false_iff_ne.2 before).symm
  exact firstWhere_set_same sau.sets n 0 same

theorem emptyRecord_only (none : emptyRecord sau = none) (inside : n < sau.sets.length) :
    emptyRecord { sau with sets := sau.sets.set n .blank } = some n :=
  (firstWhere_set_only (p := SetRecord.isEmpty) _ _ _ none inside rfl).trans (by rw [Nat.zero_add])

/-- The search finds the oldest HELD record. -/
theorem OldestHeld.found {dest : Option Destination} (h : OldestHeld sau dest n) {p : Nat → SetRecord → Bool}
    (admits : ∀ i r, p i r = true ↔ dest ≠ some (.set i)) : ∃ o, oldestHeld p 0 sau.sets = some (o, n) := by
  rcases oldestHeld_cases p sau.sets 0 with ⟨_, others⟩ | ⟨k, inside, found, held, admitted, oldest⟩
  · exact absurd ((admits _ _).2 (by rw [Nat.zero_add]; exact h.apart)) (Bool.eq_false_iff.1 (others n h.inside h.held))
  · rw [Nat.zero_add, admits] at admitted
    by_cases same : k = n
    · exact ⟨_, by rw [found, Nat.zero_add, same]⟩
    · have earlier := oldest n h.inside h.held ((admits _ _).2 (by rw [Nat.zero_add]; exact h.apart))
      exact absurd earlier (Nat.not_le.2 (h.younger k inside same held admitted))

end Records

/-! ### The target taken, and notices raised since -/

section Telling
variable {s b : State} {n : Nat} {x : Target} {note : Notice}

/-- Since the target was taken nothing but the FLI and the sticky flags has changed. -/
structure Telling (s b : State) : Prop where
  rest : b = { targetTaken s with fli := b.fli, mu := b.mu }
  body : b.mu.body = s.mu.body

theorem telling_targetTaken (s : State) : Telling s (targetTaken s) := ⟨rfl, rfl⟩

theorem Telling.raise (h : Telling s b) (note : Notice) : Telling s (raiseNotice note b) := by
  refine ⟨?_, (raiseNotice_muBody ..).trans h.body⟩
  rcases raiseNotice_cases note b with ⟨_, e⟩ | ⟨_, e⟩
  · rw [e]; exact congrArg (fun v => { v with fli := { b.fli with notices := b.fli.notices ++ [note] } }) h.rest
  · rw [e]
    exact congrArg (fun v => { v with mu := { b.mu with sticky := { b.mu.sticky with noticesLost := true } } }) h.rest

theorem Telling.sau (h : Telling s b) : b.sau = s.sau := (congrArg State.sau h.rest).trans rfl
theorem Telling.cs (h : Telling s b) : b.cs = s.cs := (congrArg State.cs h.rest).trans rfl
theorem Telling.sc (h : Telling s b) : b.sc = s.sc := (congrArg State.sc h.rest).trans rfl
theorem Telling.cli (h : Telling s b) : b.cli = s.cli := (congrArg State.cli h.rest).trans rfl
theorem Telling.rs (h : Telling s b) : b.rs = { s.rs with intake := .idle } := (congrArg State.rs h.rest).trans rfl
theorem Telling.entryFree (h : Telling s b) : Machine.entryFree b = Machine.entryFree s := by
  unfold Machine.entryFree
  rw [h.cs]

theorem targetTaken_notices (s : State) : (targetTaken s).fli.notices = s.fli.notices := takeHead_notices s.fli

/-- R172: a notice with a place for it stands at the tail. -/
theorem raiseNotice_notices (note : Notice) (room : b.fli.notices.length < 32) :
    (raiseNotice note b).fli.notices = b.fli.notices ++ [note] := by rw [raiseNotice_room note room]

/-- A notice raised with a place for it. -/
theorem Telling.raised (h : Telling s b) (note : Notice) (room : b.fli.notices.length < 32) :
    ∃ c, raiseNotice note b = c ∧ Telling s c ∧ c.fli.notices = b.fli.notices ++ [note] :=
  ⟨_, rfl, h.raise note, raiseNotice_notices note room⟩

/-- A notice raised by the target, with a place for it. -/
theorem targetTaken_raised (note : Notice) (room : s.fli.notices.length < 32) :
    ∃ c, raiseNotice note (targetTaken s) = c ∧ Telling s c ∧ c.fli.notices = s.fli.notices ++ [note] := by
  rw [← targetTaken_notices] at room ⊢
  exact (telling_targetTaken s).raised note room

/-- R118, R130: record `n` has been placed as a SET job: it is EMPTY, its slots are QUEUED, and the intake is IDLE. -/
structure Placed (s : State) (n : Nat) (short : Bool) (j : Job) (v : State) : Prop where
  job    : SetJobOf s.mu (setAt s.sau n) short j
  sau    : v.sau = { s.sau with sets := s.sau.sets.set n .blank }
  cs     : v.cs = { s.cs with queue := s.cs.queue ++ [.job j], nextId := s.cs.nextId + 1 }
  queued : SlotsQueued s v j.id (setCards (setAt s.sau n))
  rs     : v.rs = { s.rs with intake := .idle }
  cli    : v.cli = s.cli

theorem Telling.placed (h : Telling s b) (short : Bool) (inside : n < s.sau.sets.length) (empty : s.sau.backlog = [])
    (free : Machine.entryFree s = true) : ∃ v j,
      drainBacklog (withRecord n { setAt s.sau n with state := .closed, short := short } [.set n] b) = v
      ∧ Placed s n short j v ∧ v.fli = b.fli := by
  obtain ⟨v, j, drained, job, effect, queued⟩ := drainBacklog_closed (s := b) (n := n) (short := short)
    (by rw [h.sau]; exact inside) (by rw [h.sau]; exact empty) (h.entryFree.trans free)
  rw [h.sau] at drained job queued
  refine ⟨v, j, drained, ⟨job.congr h.body.symm rfl rfl rfl, ?_, ?_, queued.congr (by rw [h.sc]) rfl, ?_, ?_⟩, ?_⟩
  · rw [effect, ← h.sau]
  · rw [effect, ← h.cs]
  · rw [effect, ← h.rs]
  · rw [effect, ← h.cli]
  · rw [effect]

end Telling

/-! ### END of a set that is placed at once (R125) -/

section EndPlaced
variable {s b : State} {n : Nat} {x : Target} {short : Bool}

theorem end_placed (head : headTarget .endSet s = some x) (noFrame : ∀ f, s.rs.intake ≠ .receiving f)
    (current : currentSet s.sau = some n) (empty : s.sau.backlog = []) (free : entryFree s = true) (telling : Telling s b)
    (ended : endSet n x.roll x.ordinal (targetTaken s)
      = withRecord n { setAt s.sau n with state := .closed, short := short } [.set n] b) :
    ∃ v t j, exec .endTarget s = .next t ∧ SetsOff (setPassMode false v) t ∧ Placed s n short j v ∧ v.fli = b.fli := by
  obtain ⟨t, completes, sets⟩ := endTarget_completes head noFrame
  obtain ⟨v, j, drained, placed, fli⟩ := telling.placed short (currentSet_inside current) empty free
  rw [endTargetOp_current current, ended, drained] at sets
  exact ⟨v, t, j, completes, sets, placed, fli⟩

end EndPlaced

/-! ### START over an OPEN record (R126 step 1) -/

section Restart
variable {s b v : State} {n m : Nat} {x : Target}

/-- R126 step 1: the notice of a START over the OPEN record `n`. -/
def missingEnd (x : Target) (n : Nat) (r : SetRecord) : Notice :=
  setNotice .missingEnd x.roll x.ordinal (r.title.map Title.key) none n (sheetsPresent r)

theorem startTargetOp_current (current : currentSet s.sau = some n) : startTargetOp x (targetTaken s)
    = openOrForce x (drainBacklog
        (endSet n x.roll x.ordinal (raiseNotice (missingEnd x n (setAt s.sau n)) (targetTaken s)))) := by
  have stands : currentSet (targetTaken s).sau = some n := current
  unfold startTargetOp
  simp only [stands]
  rfl

/-- START once the OPEN record has been ended as `v` and an EMPTY one is found. -/
theorem start_reopens (head : headTarget .start s = some x) (noFrame : ∀ f, s.rs.intake ≠ .receiving f)
    (current : currentSet s.sau = some n) (raised : raiseNotice (missingEnd x n (setAt s.sau n)) (targetTaken s) = b)
    (ended : drainBacklog (endSet n x.roll x.ordinal b) = v)
    (empty : emptyRecord v.sau = some m) : ∃ t, exec .start s = .next t ∧ SetsOff (openRecord m v) t := by
  obtain ⟨t, completes, sets⟩ := start_completes head noFrame
  rw [startTargetOp_current current, raised, ended, openOrForce_opens empty] at sets
  exact ⟨t, completes, sets⟩

end Restart

/-! ### START that forces a HELD set out (R126 steps 3 and 4) -/

section Force
variable {s b v : State} {n m roll ordinal detail : Nat} {x : Target}

/-- R126 step 3, R128 step 1: the notice of a HELD set forced out. -/
def forcedNotice (n roll ordinal detail : Nat) (r : SetRecord) : Notice :=
  setNotice .setForced roll ordinal (r.title.map Title.key) (lowestMissing r) n detail

theorem forceOut_filed (filed : setCards (setAt b.sau n) ≠ []) : forceOut n roll ordinal detail b
    = withRecord n { setAt b.sau n with state := .closed, short := true } [.set n]
        (raiseNotice (forcedNotice n roll ordinal detail (setAt b.sau n)) b) := by
  rw [← raiseNotice_withRecord, ← closeSet_filed filed]
  rfl

theorem forceOut_spilled (none : setCards (setAt b.sau n) = []) : forceOut n roll ordinal detail b
    = withRecord n .blank [] (raiseNotice (forcedNotice n roll ordinal detail (setAt b.sau n)) b) := by
  rw [← raiseNotice_withRecord, ← closeSet_spilled none true]
  rfl

/-- R126 step 3: the oldest HELD set has been forced out as `v`, and a record is EMPTY. -/
theorem openOrForce_reopens (noEmpty : emptyRecord b.sau = none) (oldest : OldestHeld b.sau none n)
    (forced : drainBacklog (forceOut n x.roll x.ordinal 1 b) = v) (empty : emptyRecord v.sau = some m) :
    openOrForce x b = openRecord m v := by
  obtain ⟨o, found⟩ := oldest.found (p := fun _ _ => true) (fun _ _ => iff_of_true rfl nofun)
  unfold openOrForce
  simp only [noEmpty, found, forced, empty]

/-- R126 step 4: the oldest HELD set has been forced out as `v`, and no record is EMPTY. -/
theorem openOrForce_forcedPasses (noEmpty : emptyRecord b.sau = none) (oldest : OldestHeld b.sau none n)
    (forced : drainBacklog (forceOut n x.roll x.ordinal 1 b) = v) (none : emptyRecord v.sau = none) :
    openOrForce x b = setPassMode true v := by
  obtain ⟨o, found⟩ := oldest.found (p := fun _ _ => true) (fun _ _ => iff_of_true rfl nofun)
  unfold openOrForce
  simp only [noEmpty, found, forced, none]

end Force

/-! ### A fill into a HELD record (R114, R122) -/

section HeldFill
variable {s : State} {n k : Nat} {f : FrameCtx} {m : Matched} {x : Title} {chip : Chip} {flags : CardFlags}

/-- The frame filed into record `n`, before the record is closed. -/
def filedInto (n k : Nat) (f : FrameCtx) (m : Matched) (chip : Chip) (s : State) : State :=
  { s with
    sc := filedSc n k m chip (setAt s.sau n) s.sc
    sau := putSet n (recordWith k f m (setFlags (setAt s.sau n) m chip.flags) (setAt s.sau n)) s.sau }

/-- R122: a HELD record that the fill completes is closed. -/
theorem fileIntoSet_held (held : (setAt s.sau n).state = .held) (inside : k < s.sc.slots.length)
    (filling : slotAt s.sc k = .held .filling chip)
    (apart : ∀ roll ordinal flags, (setAt s.sau n).sheets.getD (m.sheet - 1) .empty ≠ .filed k roll ordinal flags) :
    fileIntoSet n k f m s
      = if setComplete (recordWith k f m (setFlags (setAt s.sau n) m chip.flags) (setAt s.sau n)) = true
        then closeSet n false (filedInto n k f m chip s) else filedInto n k f m chip s := by
  unfold fileIntoSet
  extract_lets r title before retake extra sc1 r1 s1
  have count : title.sheetCount = (r.title.map Title.sheetCount).getD m.sheetCount := by
    unfold title
    cases r.title <;> rfl
  have stands : slotAt (freeReplaced before s.sc) k = .held .filling chip := (freeReplaced_other apart).trans filling
  have filed : sc1 = filedSc n k m chip r s.sc := by
    unfold sc1 filedSc
    rw [fileSlot_filling stands]
    simp only [setFlags, extra, count]
    rfl
  have flags : flagsAt sc1 k = setFlags r m chip.flags := by
    rw [filed]
    exact flagsAt_held (slotAt_setSlot_same _ (by simpa using inside))
  have record : r1 = recordWith k f m (setFlags r m chip.flags) r := by
    simp only [r1, recordWith, flags]
    rfl
  have state : s1 = filedInto n k f m chip s := by
    unfold s1
    rw [filed, record]
    rfl
  simp only [state, record, show r.state = .held from held, true_and]
  rfl

theorem recordWith_title {r : SetRecord} (title : r.title = some x) : (recordWith k f m flags r).title = some x := by
  unfold recordWith
  rw [title]
  rfl

theorem recordWith_sheet {r : SetRecord} (inside : m.sheet - 1 < r.sheets.length) :
    (recordWith k f m flags r).sheets.getD (m.sheet - 1) .empty = .filed k f.roll f.ordinal flags := by
  unfold recordWith
  rw [getD_inside (by simpa using inside), List.getElem_set_self]

/-- R114: a record is complete when each of its counted sheets is present. -/
theorem setComplete_iff {r : SetRecord} (title : r.title = some x) (counted : x.sheetCount ≤ r.sheets.length) :
    setComplete r = true ↔ ∀ i, i < x.sheetCount → (r.sheets.getD i .empty).present = true := by
  unfold setComplete countedSheets
  simp only [title, List.all_eq_true, List.mem_iff_getElem, List.length_take, Nat.min_eq_left counted]
  refine ⟨fun all i below => ?_, ?_⟩
  · rw [getD_inside (Nat.lt_of_lt_of_le below counted)]
    exact all _ ⟨i, below, List.getElem_take⟩
  · rintro all _ ⟨i, below, rfl⟩
    rw [List.getElem_take, ← getD_inside (d := .empty)]
    exact all i below

/-- R114, R122: the fill completes the record when every other counted sheet was present. -/
theorem recordWith_complete {r : SetRecord} (title : r.title = some x) (counted : x.sheetCount ≤ r.sheets.length)
    (inside : m.sheet - 1 < r.sheets.length) : setComplete (recordWith k f m flags r) = true
      ↔ ∀ i, i < x.sheetCount → i ≠ m.sheet - 1 → (r.sheets.getD i .empty).present = true := by
  have length : (recordWith k f m flags r).sheets.length = r.sheets.length := List.length_set
  rw [setComplete_iff (recordWith_title title) (by rw [length]; exact counted)]
  have others {i : Nat} (apart : i ≠ m.sheet - 1) :
      (recordWith k f m flags r).sheets.getD i .empty = r.sheets.getD i .empty := getD_set_other _ apart.symm
  refine ⟨fun all i below apart => ?_, fun all i below => ?_⟩
  · rw [← others apart]
    exact all i below
  · by_cases apart : i = m.sheet - 1
    · rw [apart, recordWith_sheet inside]
      rfl
    · rw [others apart]
      exact all i below apart

/-- A FILED position gives the record a card. -/
theorem filedCards_ne_nil {l : List SheetPos} {i roll ordinal : Nat} (first : Nat)
    (filed : l.getD i .empty = .filed k roll ordinal flags) : filedCards first l ≠ [] := by
  induction l generalizing i first with
  | nil => cases filed
  | cons p ps ih =>
    cases i with
    | zero =>
      cases (show p = _ from filed)
      exact nofun
    | succ i =>
      cases p with
      | filed => exact nofun
      | empty | spilled => exact ih (first + 1) filed

end HeldFill

/-! ### The group's last frame (R123) -/

theorem fileIntoGroup_last {s : State} {f : FrameCtx} {k : Nat} {chip : Chip} (last : s.sau.group.length = 63)
    (inside : k < s.sc.slots.length) (filling : slotAt s.sc k = .held .filling chip) :
    fileIntoGroup k f s = closeGroup { s with
      sc := setSlot k (.held .filed { chip with
        owner := .group 64, flags := { chip.flags with unindexed := true } }) s.sc
      sau := { s.sau with
        group := s.sau.group
          ++ [{ slot := k, roll := f.roll, ordinal := f.ordinal, flags := { chip.flags with unindexed := true } }] } } := by
  have full (x : GroupFrame) : (s.sau.group ++ [x]).length = Config.groupFrames := by
    rw [List.length_append, List.length_singleton, last]
    rfl
  unfold fileIntoGroup
  simp only [fileSlot_filling filling, flagsAt_held (slotAt_setSlot_same _ inside), last]
  exact if_pos (full _)

/-! ### Pressure release (R128) -/

section Pressure
variable {s : State} {f : FrameCtx} {n : Nat}

theorem isSet_eq_true {d : Destination} : d.isSet n = true ↔ d = .set n := by
  cases d <;> simp [Destination.isSet]

/-- R128 step 1. -/
theorem pressureRelease_forces (oldest : OldestHeld s.sau (some f.dest) n) :
    pressureRelease f s = forceOut n f.roll f.ordinal 2 s := by
  obtain ⟨o, found⟩ := oldest.found (p := fun i _ => !f.dest.isSet i) fun i _ => by
    rw [Bool.not_eq_true', ← Bool.not_eq_true, isSet_eq_true, ne_eq, Option.some.injEq]
  unfold pressureRelease
  simp only [found]

/-- With no HELD record but the frame's destination, the release passes on to the group and the current set. -/
theorem pressureRelease_noHeld
    (noHeld : ∀ i, i < s.sau.sets.length → (setAt s.sau i).state = .held → f.dest = .set i) : pressureRelease f s
      = if groupState s.sau = .collecting ∧ f.dest ≠ .group then closeGroup s else requestSpill s := by
  unfold pressureRelease
  rcases oldestHeld_cases (fun i _ => !f.dest.isSet i) s.sau.sets 0 with ⟨found, _⟩ | ⟨n, inside, _, held, apart, _⟩
  · simp only [found]
  · rw [Nat.zero_add, isSet_eq_true.2 (noHeld n inside held)] at apart
    cases apart

theorem spillAsked_iff : s.sau.backlog.any (BacklogItem.isSpillOf n) = true ↔ ∃ o, .spill n o ∈ s.sau.backlog := by
  rw [List.any_eq_true]
  refine ⟨?_, fun ⟨o, stands⟩ => ⟨_, stands, beq_self_eq_true n⟩⟩
  rintro ⟨item, stands, asks⟩
  cases item with
  | spill m o =>
    cases (show m = n from eq_of_beq asks)
    exact ⟨o, stands⟩
  | set | group | marker => cases asks

/-- R128 step 3. -/
theorem requestSpill_asks (current : currentSet s.sau = some n) (filed : setCards (setAt s.sau n) ≠ [])
    (notAsked : ∀ o, .spill n o ∉ s.sau.backlog) :
    requestSpill s = joinBacklog (.spill n ((setAt s.sau n).opening.getD 0)) s := by
  unfold requestSpill
  simp only [current]
  exact if_pos ⟨filed, Bool.eq_false_iff.2 fun asked => (spillAsked_iff.1 asked).elim notAsked⟩

theorem requestSpill_stands (current : currentSet s.sau = some n) {o : Nat}
    (nothing : setCards (setAt s.sau n) = [] ∨ .spill n o ∈ s.sau.backlog) : requestSpill s = s := by
  unfold requestSpill
  simp only [current]
  refine if_neg fun ⟨filed, notAsked⟩ => ?_
  rcases nothing with none | asked
  · exact filed none
  · exact Bool.eq_false_iff.1 notAsked (spillAsked_iff.2 ⟨o, asked⟩)

theorem requestSpill_noCurrent (noCurrent : currentSet s.sau = none) : requestSpill s = s := by
  unfold requestSpill
  simp only [noCurrent]

end Pressure

/-! ### The clauses of the statement O54 -/

section Reopen
variable {s b v : State} {n m : Nat} {sets : List SetRecord} {r : SetRecord}

/-- R126 step 2: the record that START opens. -/
theorem openRecord_over (sau : v.sau = { s.sau with sets := sets }) : (openRecord m v).sau = { s.sau with
    sets := sets.set m { SetRecord.blank with state := .opened, opening := some s.sau.openings }
    openings := s.sau.openings + 1, passMode := false } := by
  unfold openRecord changeSet putSet
  simp only [sau]

theorem Telling.changed (h : Telling s b) : (withRecord n r [] b).sau = { s.sau with sets := s.sau.sets.set n r } := by
  simp only [withRecord, h.sau, List.append_nil]

/-- A record changed while the backlog stands still. -/
theorem Telling.still (h : Telling s b) (still : s.sau.backlog = [] ∨ Machine.entryFree s = false) :
    drainBacklog (withRecord n r [] b) = withRecord n r [] b := by
  refine drainBacklog_withRecord ?_
  rw [h.sau, h.entryFree]
  exact still.imp (⟨·, rfl⟩) id

end Reopen

section Clauses
variable {s : State} {x : Target} {n m : Nat} {k : Title}

/-- R126 step 1: START over an OPEN record with no key. -/
theorem start_overNoKey (head : headTarget .start s = some x) (noFrame : ∀ f, s.rs.intake ≠ .receiving f)
    (current : currentSet s.sau = some n) (room : s.fli.notices.length < 31) (noKey : (setAt s.sau n).title = none)
    (still : s.sau.backlog = [] ∨ entryFree s = false)
    (empty : emptyRecord { s.sau with sets := s.sau.sets.set n .blank } = some m) :
    ∃ u t, exec .start s = .next t ∧ SetsOff u t
      ∧ u.sau = { s.sau with
          sets := (s.sau.sets.set n .blank).set m { SetRecord.blank with state := .opened, opening := some s.sau.openings }
          openings := s.sau.openings + 1, passMode := false }
      ∧ u.fli.notices = s.fli.notices ++ [missingEnd x n (setAt s.sau n)] ∧ u.cs = s.cs
      ∧ u.rs = { s.rs with intake := .idle } := by
  obtain ⟨b, raised, told, notices⟩ := targetTaken_raised (missingEnd x n (setAt s.sau n)) (Nat.lt_succ_of_lt room)
  have ended : drainBacklog (endSet n x.roll x.ordinal b) = withRecord n .blank [] b := by
    rw [endSet_noKey (by rw [told.sau]; exact noKey), told.still still]
  obtain ⟨t, completes, sets⟩ := start_reopens head noFrame current raised ended (by rw [told.changed]; exact empty)
  exact ⟨_, t, completes, sets, openRecord_over told.changed, notices, told.cs, told.rs⟩

/-- R126 step 1: START over an OPEN record that is short under HOLD. -/
theorem start_overShort (head : headTarget .start s = some x) (noFrame : ∀ f, s.rs.intake ≠ .receiving f)
    (current : currentSet s.sau = some n) (room : s.fli.notices.length < 31) (title : (setAt s.sau n).title = some k)
    (short : setComplete (setAt s.sau n) = false) (policy : (classAt s.mu k.cls).short = .hold)
    (still : s.sau.backlog = [] ∨ entryFree s = false) (empty : emptyRecord s.sau = some m) :
    ∃ u t, exec .start s = .next t ∧ SetsOff u t
      ∧ u.sau = { s.sau with
          sets := (s.sau.sets.set n { setAt s.sau n with state := .held, short := true }).set m
            { SetRecord.blank with state := .opened, opening := some s.sau.openings }
          openings := s.sau.openings + 1, passMode := false }
      ∧ u.fli.notices = s.fli.notices
          ++ [missingEnd x n (setAt s.sau n), shortNotice n x.roll x.ordinal k.key (setAt s.sau n)]
      ∧ u.cs = s.cs ∧ u.rs = { s.rs with intake := .idle } := by
  obtain ⟨a, missed, toldMissing, first⟩ := targetTaken_raised (missingEnd x n (setAt s.sau n)) (Nat.lt_succ_of_lt room)
  obtain ⟨b, raised, told, second⟩ := toldMissing.raised (shortNotice n x.roll x.ordinal k.key (setAt s.sau n)) (by
    rw [first, List.length_append]
    exact Nat.succ_lt_succ room)
  have held := endSet_held (b := a) (n := n) (x := k) (roll := x.roll) (ordinal := x.ordinal)
    (by rw [toldMissing.sau]; exact title) (by rw [toldMissing.sau]; exact short)
    (by rw [classAt_of_body toldMissing.body, policy])
  rw [toldMissing.sau, raised] at held
  have found : emptyRecord { s.sau with sets := s.sau.sets.set n { setAt s.sau n with state := .held, short := true } }
      = some m := (emptyRecord_set (by rw [currentSet_opened current]; exact nofun) (by exact nofun)).trans empty
  obtain ⟨t, completes, sets⟩ := start_reopens head noFrame current missed
    ((congrArg drainBacklog held).trans (told.still still)) (by rw [told.changed]; exact found)
  refine ⟨_, t, completes, sets, openRecord_over told.changed, ?_, told.cs, told.rs⟩
  rw [first, List.append_assoc] at second
  exact second

/-- R126 step 1: START over an OPEN record that is complete, placed at once. -/
theorem start_overComplete (head : headTarget .start s = some x) (noFrame : ∀ f, s.rs.intake ≠ .receiving f)
    (current : currentSet s.sau = some n) (room : s.fli.notices.length < 31) (title : (setAt s.sau n).title = some k)
    (complete : setComplete (setAt s.sau n) = true) (filed : setCards (setAt s.sau n) ≠ []) (none : s.sau.backlog = [])
    (free : entryFree s = true) (empty : emptyRecord { s.sau with sets := s.sau.sets.set n .blank } = some m) :
    ∃ u t j, exec .start s = .next t ∧ SetsOff u t ∧ SetJobOf s.mu (setAt s.sau n) false j
      ∧ u.sau = { s.sau with
          sets := (s.sau.sets.set n .blank).set m { SetRecord.blank with state := .opened, opening := some s.sau.openings }
          openings := s.sau.openings + 1, passMode := false }
      ∧ u.fli.notices = s.fli.notices ++ [missingEnd x n (setAt s.sau n)] ∧ u.cs.queue = s.cs.queue ++ [.job j]
      ∧ u.rs = { s.rs with intake := .idle } := by
  obtain ⟨b, raised, told, notices⟩ := targetTaken_raised (missingEnd x n (setAt s.sau n)) (Nat.lt_succ_of_lt room)
  obtain ⟨v, j, drained, placed, fli⟩ := told.placed false (currentSet_inside current) none free
  have closed : endSet n x.roll x.ordinal b
      = withRecord n { setAt s.sau n with state := .closed, short := false } [.set n] b := by
    rw [endSet_complete (by rw [told.sau]; exact title) (by rw [told.sau]; exact complete),
      closeSet_filed (by rw [told.sau]; exact filed), told.sau]
  obtain ⟨t, completes, sets⟩ := start_reopens head noFrame current raised ((congrArg drainBacklog closed).trans drained)
    (by rw [placed.sau]; exact empty)
  exact ⟨_, t, j, completes, sets, placed.job, openRecord_over placed.sau, (congrArg Fli.notices fli).trans notices,
    congrArg Cs.queue placed.cs, placed.rs⟩

/-- R126 steps 3 and 4: START with no record EMPTY forces the oldest HELD set out. -/
theorem start_forces (head : headTarget .start s = some x) (noFrame : ∀ f, s.rs.intake ≠ .receiving f)
    (noCurrent : currentSet s.sau = none) (noEmpty : emptyRecord s.sau = none) (oldest : OldestHeld s.sau none n)
    (filed : setCards (setAt s.sau n) ≠ []) (room : s.fli.notices.length < 32) :
    (s.sau.backlog = [] → entryFree s = true → ∃ u t j, exec .start s = .next t ∧ SetsOff u t
      ∧ SetJobOf s.mu (setAt s.sau n) true j
      ∧ u.sau = { s.sau with
          sets := s.sau.sets.set n { SetRecord.blank with state := .opened, opening := some s.sau.openings }
          openings := s.sau.openings + 1, passMode := false }
      ∧ u.cs.queue = s.cs.queue ++ [.job j] ∧ SlotsQueued s u j.id (setCards (setAt s.sau n))
      ∧ u.fli.notices = s.fli.notices ++ [forcedNotice n x.roll x.ordinal 1 (setAt s.sau n)])
    ∧ (entryFree s = false → ∃ u t, exec .start s = .next t ∧ SetsOff u t
      ∧ u.sau = { s.sau with
          sets := s.sau.sets.set n { setAt s.sau n with state := .closed, short := true }
          backlog := s.sau.backlog ++ [.set n], passMode := true }
      ∧ u.cs = s.cs ∧ u.fli.notices = s.fli.notices ++ [forcedNotice n x.roll x.ordinal 1 (setAt s.sau n)]) := by
  obtain ⟨b, raised, told, notices⟩ := targetTaken_raised (forcedNotice n x.roll x.ordinal 1 (setAt s.sau n)) room
  have forced : forceOut n x.roll x.ordinal 1 (targetTaken s)
      = withRecord n { setAt s.sau n with state := .closed, short := true } [.set n] b :=
    (forceOut_filed (b := targetTaken s) filed).trans (congrArg _ raised)
  obtain ⟨t, completes, sets⟩ := start_completes head noFrame
  rw [startTargetOp_noCurrent (b := targetTaken s) noCurrent] at sets
  refine ⟨fun empty free => ?_, fun full => ?_⟩
  · obtain ⟨v, j, drained, placed, fli⟩ := told.placed true oldest.inside empty free
    have reopened : emptyRecord v.sau = some n := by
      rw [placed.sau]
      exact emptyRecord_only noEmpty oldest.inside
    rw [openOrForce_reopens (b := targetTaken s) noEmpty oldest ((congrArg drainBacklog forced).trans drained) reopened]
      at sets
    refine ⟨_, t, j, completes, sets, placed.job, ?_, congrArg Cs.queue placed.cs, placed.queued.congr rfl rfl,
      (congrArg Fli.notices fli).trans notices⟩
    rw [openRecord_over placed.sau, List.set_set]
  · have stays := (congrArg drainBacklog forced).trans (drainBacklog_withRecord (.inr (told.entryFree.trans full)))
    have sau : (withRecord n { setAt s.sau n with state := .closed, short := true } [.set n] b).sau = { s.sau with
        sets := s.sau.sets.set n { setAt s.sau n with state := .closed, short := true }
        backlog := s.sau.backlog ++ [.set n] } := by
      simp only [withRecord, told.sau]
    have noneEmpty := (emptyRecord_set (r := { setAt s.sau n with state := .closed, short := true })
      (by rw [oldest.held]; exact nofun) (by exact nofun)).trans noEmpty
    rw [openOrForce_forcedPasses (b := targetTaken s) noEmpty oldest stays (by rw [sau]; exact noneEmpty)] at sets
    refine ⟨_, t, completes, sets, ?_, told.cs, notices⟩
    simp only [setPassMode, sau]

end Clauses

section EndClause
variable {s : State} {x : Target} {n : Nat} {k : Title}

/-- R125: END of a set that goes on to the card path at once. -/
theorem end_sendsOn (head : headTarget .endSet s = some x) (noFrame : ∀ f, s.rs.intake ≠ .receiving f)
    (current : currentSet s.sau = some n) (title : (setAt s.sau n).title = some k) (filed : setCards (setAt s.sau n) ≠ [])
    (empty : s.sau.backlog = []) (free : entryFree s = true)
    (sends : setComplete (setAt s.sau n) = true ∨ (classAt s.mu k.cls).short = .send) :
    ∃ v t j, exec .endTarget s = .next t ∧ SetsOff (setPassMode false v) t
      ∧ Placed s n (!setComplete (setAt s.sau n)) j v
      ∧ (setComplete (setAt s.sau n) = true → v.fli = takeHead s.fli)
      ∧ (setComplete (setAt s.sau n) = false → s.fli.notices.length < 32 →
          v.fli.notices = s.fli.notices ++ [shortNotice n x.roll x.ordinal k.key (setAt s.sau n)]) := by
  cases complete : setComplete (setAt s.sau n) with
  | true =>
    have ended := (endSet_complete (b := targetTaken s) (roll := x.roll) (ordinal := x.ordinal) title complete).trans
      (closeSet_filed (b := targetTaken s) filed false)
    obtain ⟨v, t, j, completes, sets, placed, fli⟩ :=
      end_placed head noFrame current empty free (telling_targetTaken s) ended
    exact ⟨v, t, j, completes, sets, placed, fun _ => fli, nofun⟩
  | false =>
    have policy := sends.resolve_left (by rw [complete]; exact nofun)
    have ended := endSet_sent (b := targetTaken s) (roll := x.roll) (ordinal := x.ordinal) title complete policy
    rw [closeSet_filed (b := targetTaken s) filed, raiseNotice_withRecord] at ended
    obtain ⟨v, t, j, completes, sets, placed, fli⟩ :=
      end_placed head noFrame current empty free ((telling_targetTaken s).raise _) ended
    refine ⟨v, t, j, completes, sets, placed, nofun, fun _ room => ?_⟩
    obtain ⟨_, rfl, _, notices⟩ := targetTaken_raised (shortNotice n x.roll x.ordinal k.key (setAt s.sau n)) room
    exact (congrArg Fli.notices fli).trans notices

end EndClause

section FillClauses
variable {s : State} {w : WriteBurst} {f : FrameCtx} {k n : Nat} {m : Matched} {x : Title} {chip : Chip}

/-- R114, R122: the filing of the last closing burst's frame into a HELD record. -/
theorem fill_held (active : activeWrite s = some w) (fits : writeFits w = true) (stands : w.aborted = false)
    (intake : s.rs.intake = .receiving f) (work : s.rs.work = .margins false []) (slot : f.slot = some k)
    (inside : k < s.sc.slots.length) (filling : slotAt s.sc k = .held .filling chip) (dest : f.dest = .set n)
    (entry : f.entry = some m) (position : m.sheet - 1 < (setAt s.sau n).sheets.length)
    (held : (setAt s.sau n).state = .held) (title : (setAt s.sau n).title = some x)
    (counted : x.sheetCount ≤ (setAt s.sau n).sheets.length)
    (apart : ∀ roll ordinal flags, (setAt s.sau n).sheets.getD (m.sheet - 1) .empty ≠ .filed k roll ordinal flags) :
    ∃ u t flags, exec .writeBurstServed s = .next t ∧ SetsOff u t ∧ u.fli = s.fli ∧ u.cs = s.cs
      ∧ (setAt u.sau n).sheets = (setAt s.sau n).sheets.set (m.sheet - 1) (.filed k f.roll f.ordinal flags)
      ∧ (setAt u.sau n).title = some x
      ∧ slotAt u.sc k = .held .filed { chip with owner := .set n m.sheet, flags := flags }
      ∧ ((∀ i, i < x.sheetCount → i ≠ m.sheet - 1 → ((setAt s.sau n).sheets.getD i .empty).present = true) →
          (setAt u.sau n).state = .closed ∧ (setAt u.sau n).short = false ∧ u.sau.backlog = s.sau.backlog ++ [.set n])
      ∧ (∀ i, i < x.sheetCount → i ≠ m.sheet - 1 → ((setAt s.sau n).sheets.getD i .empty).present = false →
          (setAt u.sau n).state = .held ∧ (setAt u.sau n).short = (setAt s.sau n).short
            ∧ u.sau.backlog = s.sau.backlog) := by
  obtain ⟨t, completes, sets⟩ := lastClosing_served active fits stands work
  have effect := fileOpen_receiving (s := burstEnded w s) intake slot
  have filed : fileFrame f k (burstEnded w s) = fileIntoSet n k f m (burstEnded w s) := by
    unfold fileFrame
    rw [dest, entry]
  replace filed := filed.trans (fileIntoSet_held (s := burstEnded w s) held inside filling apart)
  have complete := recordWith_complete (k := k) (f := f) (flags := setFlags (setAt s.sau n) m chip.flags)
    title counted position
  have named := recordWith_title (k := k) (f := f) (m := m) (flags := setFlags (setAt s.sau n) m chip.flags) title
  have record : setAt (filedInto n k f m chip (burstEnded w s)).sau n
      = recordWith k f m (setFlags (setAt s.sau n) m chip.flags) (setAt s.sau n) :=
    setAt_putSet (setAt_notEmpty_inside (by rw [show (setAt (burstEnded w s).sau n).state = _ from held]; exact nofun))
  have inRecord : n < (filedInto n k f m chip (burstEnded w s)).sau.sets.length := by
    refine setAt_notEmpty_inside ?_
    rw [record]
    exact fun empty => absurd (held.symm.trans empty) nofun
  refine ⟨fileOpen (burstEnded w s), t, setFlags (setAt s.sau n) m chip.flags, completes, sets rfl, ?_⟩
  by_cases all : ∀ i, i < x.sheetCount → i ≠ m.sheet - 1 → ((setAt s.sau n).sheets.getD i .empty).present = true
  · have cards : setCards (setAt (filedInto n k f m chip (burstEnded w s)).sau n) ≠ [] := by
      rw [record]
      exact filedCards_ne_nil 1 (recordWith_sheet position)
    replace filed := filed.trans (if_pos (complete.2 all))
    rw [closeSet_filed cards, record] at filed
    rw [filed] at effect
    have closed : setAt (fileOpen (burstEnded w s)).sau n = { recordWith k f m (setFlags (setAt s.sau n) m chip.flags)
        (setAt s.sau n) with state := .closed, short := false } := by
      rw [effect]
      exact setAt_putSet inRecord
    refine ⟨by rw [effect]; rfl, by rw [effect]; rfl, by rw [closed]; rfl, by rw [closed]; exact named,
      ?_, fun _ => ⟨by rw [closed], by rw [closed], by rw [effect]; rfl⟩, fun i below other absent => ?_⟩
    · rw [effect]
      exact slotAt_setSlot_same _ (by rw [freeReplaced_slots_length]; exact inside)
    · exact absurd (all i below other) (by rw [absent]; exact nofun)
  · replace filed := filed.trans (if_neg fun done => all (complete.1 done))
    rw [filed] at effect
    have stays : setAt (fileOpen (burstEnded w s)).sau n
        = recordWith k f m (setFlags (setAt s.sau n) m chip.flags) (setAt s.sau n) := by
      rw [effect]
      exact record
    refine ⟨by rw [effect]; rfl, by rw [effect]; rfl, by rw [stays]; rfl, by rw [stays]; exact named,
      ?_, fun every => absurd every all,
      fun _ _ _ _ => ⟨by rw [stays]; exact held, by rw [stays]; rfl, by rw [effect]; rfl⟩⟩
    rw [effect]
    exact slotAt_setSlot_same _ (by rw [freeReplaced_slots_length]; exact inside)

/-- R123: the filing of the group's last frame. -/
theorem fill_groupLast (active : activeWrite s = some w) (fits : writeFits w = true) (stands : w.aborted = false)
    (intake : s.rs.intake = .receiving f) (work : s.rs.work = .margins false []) (slot : f.slot = some k)
    (inside : k < s.sc.slots.length) (filling : slotAt s.sc k = .held .filling chip) (dest : f.dest = .group)
    (last : s.sau.group.length = 63) :
    ∃ u t flags, exec .writeBurstServed s = .next t ∧ SetsOff u t
      ∧ u.fli = s.fli ∧ u.cs = s.cs ∧ flags = { chip.flags with unindexed := true }
      ∧ slotAt u.sc k = .held .filed { chip with owner := .group 64, flags := flags }
      ∧ u.sau = { s.sau with
          group := s.sau.group ++ [{ slot := k, roll := f.roll, ordinal := f.ordinal, flags := flags }]
          groupClosed := true, backlog := s.sau.backlog ++ [.group] } := by
  obtain ⟨t, completes, sets⟩ := lastClosing_served active fits stands work
  have effect := fileOpen_receiving (s := burstEnded w s) intake slot
  have filed : fileFrame f k (burstEnded w s) = fileIntoGroup k f (burstEnded w s) := by
    unfold fileFrame
    rw [dest]
  rw [filed, fileIntoGroup_last (s := burstEnded w s) last inside filling] at effect
  refine ⟨fileOpen (burstEnded w s), t, { chip.flags with unindexed := true }, completes, sets rfl, ?_⟩
  rw [effect]
  exact ⟨rfl, rfl, rfl, slotAt_setSlot_same _ inside, rfl⟩

end FillClauses

/-- R128 step 1: what the forced-out set leaves, with a place for its notice. -/
theorem pressureRelease_forced {s : State} {f : FrameCtx} {n : Nat} (oldest : OldestHeld s.sau (some f.dest) n)
    (room : s.fli.notices.length < 32) : pressureRelease f s = { s with
      sc := { s.sc with askAgain := true }
      sau := (if setCards (setAt s.sau n) = [] then { s.sau with sets := s.sau.sets.set n .blank }
        else { s.sau with
          sets := s.sau.sets.set n { setAt s.sau n with state := .closed, short := true }
          backlog := s.sau.backlog ++ [.set n] })
      fli := { s.fli with notices := s.fli.notices ++ [forcedNotice n f.roll f.ordinal 2 (setAt s.sau n)] } } := by
  rw [pressureRelease_forces oldest]
  by_cases none : setCards (setAt s.sau n) = []
  · rw [forceOut_spilled none, raiseNotice_room _ room, if_pos none]
    simp only [withRecord, List.append_nil]
  · rw [forceOut_filed none, raiseNotice_room _ room, if_neg none]
    rfl

/-- Settles O54: a clause for each of END, START over an OPEN record, START that forces a set out, the fills, and the release. -/
theorem setsSentOn : Obligations.SetsSentOn := by
  refine ⟨?ends, ?reopens, ?forces, ?fills, fun s f => ⟨fun n => pressureRelease_forced, fun noHeld => ?releases⟩⟩
  case ends =>
    rintro s x n r k head noFrame current rfl title filed empty free sends
    obtain ⟨v, t, j, completes, sets, placed, quiet, short⟩ := end_sendsOn head noFrame current title filed empty free sends
    refine ⟨_, t, j, completes, sets, placed.job, ?_, placed.cs, placed.queued.congr rfl rfl, placed.rs, placed.cli, quiet,
      short⟩
    simp only [setPassMode, placed.sau]
  case reopens =>
    rintro s x n r opened missing head noFrame current rfl rfl room rfl
    exact ⟨fun m noKey still => start_overNoKey head noFrame current room noKey still,
      fun m k title short policy still => start_overShort head noFrame current room title short policy still,
      fun m k title complete filed none free => start_overComplete head noFrame current room title complete filed none free⟩
  case forces =>
    rintro s x n r head noFrame noCurrent noEmpty oldest rfl filed room forced rfl
    exact start_forces head noFrame noCurrent noEmpty oldest filed room
  case fills =>
    intro s w f k chip active fits stands intake _ work slot inside filling
    refine ⟨fun n m x dest entry sheet held length title counted apart => ?_,
      fill_groupLast active fits stands intake work slot inside filling⟩
    exact fill_held active fits stands intake work slot inside filling dest entry (by omega) held title (by omega) apart
  case releases =>
    rw [pressureRelease_noHeld noHeld]
    refine ⟨fun collecting other => if_pos ⟨collecting, other⟩, fun apart => ?_⟩
    rw [if_neg fun ⟨collecting, other⟩ => apart.elim (· collecting) other]
    exact ⟨fun n => requestSpill_asks, fun n o current => requestSpill_stands current, requestSpill_noCurrent⟩

end Sys2Proof.Machine
end

section
/-! SUPPORT. The set records that are OPEN (R115): what the SAU's operations make of their number, and START, the one that adds
to it. -/

namespace Sys2Proof.Machine

-- Checked one after another, as the tests are, to hold the memory and the threads down.
set_option Elab.async false

/-! ### The number of OPEN records -/

section Count
variable {l : List SetRecord} {n : Nat} {v : SetRecord}

/-- A record is written over: the one there before no longer counts, and the new one does. -/
theorem countOpen_set (v : SetRecord) (inside : n < l.length) : (l.set n v).countP SetRecord.isOpen
    = l.countP SetRecord.isOpen - (if (l.getD n .blank).isOpen then 1 else 0) + (if v.isOpen then 1 else 0) := by
  rw [List.countP_set inside, getD_inside inside]

theorem countOpen_set_le (stays : v.isOpen = true → (l.getD n .blank).isOpen = true) :
    (l.set n v).countP SetRecord.isOpen ≤ l.countP SetRecord.isOpen := by
  by_cases inside : n < l.length
  · rw [countOpen_set v inside]
    by_cases opened : v.isOpen = true
    · have there := stays opened
      have one : 0 < l.countP SetRecord.isOpen := by
        rw [getD_inside inside] at there
        exact List.countP_pos_iff.2 ⟨_, List.getElem_mem inside, there⟩
      rw [if_pos opened, if_pos there]
      omega
    · rw [if_neg opened]
      omega
  · rw [List.set_eq_of_length_le (Nat.le_of_not_lt inside)]

theorem countOpen_set_succ (v : SetRecord) :
    (l.set n v).countP SetRecord.isOpen ≤ l.countP SetRecord.isOpen + 1 := by
  by_cases inside : n < l.length
  · rw [countOpen_set v inside]
    split <;> split <;> omega
  · rw [List.set_eq_of_length_le (Nat.le_of_not_lt inside)]
    exact Nat.le_succ _

/-- R115: the current set's end takes away an OPEN record. -/
theorem countOpen_set_ended (opened : (l.getD n .blank).state = .opened) (inside : n < l.length)
    (ended : v.isOpen = false) (one : l.countP SetRecord.isOpen ≤ 1) : (l.set n v).countP SetRecord.isOpen = 0 := by
  rw [countOpen_set v inside, ended, if_pos (show (l.getD n .blank).isOpen = true from beq_iff_eq.2 opened)]
  exact Nat.sub_eq_zero_of_le one

theorem countOpen_noCurrent {sau : Sau} (noCurrent : currentSet sau = none) : sau.sets.countP SetRecord.isOpen = 0 :=
  List.countP_eq_zero.2 fun r stands opened => currentSet_absent noCurrent r stands (beq_iff_eq.1 opened)

/-- R125: an ended record is OPEN no longer. -/
theorem EndedAs.notOpen {mu : Mu} {r r' : SetRecord} {items : List BacklogItem} (h : EndedAs mu n r r' items) :
    r'.isOpen = false := by
  cases h <;> rfl

end Count

/-! ### Operations of the SAU that open no record (R117 to R130) -/

/-- From `s` to `t` no record has been opened. -/
structure OpensNone (s t : State) : Prop where
  le : t.sau.sets.countP SetRecord.isOpen ≤ s.sau.sets.countP SetRecord.isOpen := by exact Nat.le_refl _

section OpensNone
variable {s t : State}

theorem OpensNone.trans {s t u : State} (h : OpensNone s t) (g : OpensNone t u) : OpensNone s u := ⟨Nat.le_trans g.le h.le⟩

theorem OpensNone.of_sau (same : t.sau = s.sau) : OpensNone s t := ⟨Nat.le_of_eq (by rw [same])⟩

theorem opensNone_raiseNotice (note : Notice) (s : State) : OpensNone s (raiseNotice note s) := .of_sau (raiseNotice_sau ..)

theorem opensNone_withRecord {n : Nat} {r : SetRecord} {items : List BacklogItem} (notOpen : r.isOpen = false) :
    OpensNone s (withRecord n r items s) where
  le := countOpen_set_le fun opened => absurd (notOpen.symm.trans opened) nofun

theorem opensNone_closeSet (n : Nat) (short : Bool) (s : State) : OpensNone s (closeSet n short s) := by
  rcases closeSet_cases n short s with ⟨_, e⟩ | ⟨_, e⟩ <;> rw [e] <;> exact opensNone_withRecord rfl

theorem opensNone_endSet (n roll ordinal : Nat) (s : State) : OpensNone s (endSet n roll ordinal s) := by
  obtain ⟨r, items, ended, ⟨_, e⟩ | ⟨x, _, _, e⟩⟩ := endSet_cases n roll ordinal s <;> rw [e]
  · exact opensNone_withRecord ended.notOpen
  · exact (opensNone_withRecord ended.notOpen).trans (opensNone_raiseNotice ..)

theorem opensNone_placeItem (x : BacklogItem) (s : State) : OpensNone s (placeItem x s) := by
  cases x with
  | set n => exact { le := countOpen_set_le nofun }
  | group => exact {}
  | spill n opening =>
    show OpensNone s (placeSpill n opening s)
    unfold placeSpill
    extract_lets
    split
    · exact { le := countOpen_set_le id }
    · exact {}
  | marker =>
    show OpensNone s (placeMarker s)
    unfold placeMarker
    extract_lets
    split <;> exact {}

theorem opensNone_placeHead (s : State) : OpensNone s (placeHead s) := by
  unfold placeHead
  split
  · exact {}
  · rename_i x rest _
    exact OpensNone.trans (t := { s with sau := { s.sau with backlog := rest } }) {} (opensNone_placeItem ..)

theorem opensNone_serveBacklog (n : Nat) (s : State) : OpensNone s (serveBacklog n s) := by
  induction n generalizing s with
  | zero => exact {}
  | succ n ih =>
    unfold serveBacklog
    split
    · exact (opensNone_placeHead s).trans (ih _)
    · exact {}

theorem opensNone_drainBacklog (s : State) : OpensNone s (drainBacklog s) := opensNone_serveBacklog ..

theorem opensNone_forceOut (n roll ordinal detail : Nat) (s : State) : OpensNone s (forceOut n roll ordinal detail s) :=
  (opensNone_closeSet n true s).trans (opensNone_raiseNotice ..)

theorem opensNone_endBatch (x : Target) (s : State) : OpensNone s (endBatch x s) := by
  unfold endBatch
  simp only [batchTail]
  split
  · exact {}
  · exact (opensNone_endSet _ x.roll x.ordinal s).trans {}

theorem opensNone_endTargetOp (x : Target) (s : State) : OpensNone s (endTargetOp x s) := by
  unfold endTargetOp
  split
  · exact {}
  · exact ((opensNone_endSet ..).trans (opensNone_drainBacklog _)).trans {}

theorem opensNone_batchEndOp (x : Target) (s : State) : OpensNone s (batchEndOp x s) :=
  ((opensNone_endBatch x s).trans {}).trans (opensNone_drainBacklog _)

theorem opensNone_releaseSet (n : Nat) (s : State) : OpensNone s (releaseSet n s) := by
  unfold releaseSet
  split
  · exact (opensNone_closeSet n true s).trans (opensNone_drainBacklog _)
  · exact {}

theorem opensNone_askRelease (f : FrameCtx) (s : State) : OpensNone s (askRelease f s) := by
  refine OpensNone.trans (t := { s with sc := { s.sc with askAgain := false } }) {} ?_
  unfold askRelease pressureRelease
  split
  · exact opensNone_forceOut ..
  · split
    · exact {}
    · unfold requestSpill
      split
      · exact {}
      · extract_lets
        split <;> exact {}

/-- R121 to R124: a record that a frame is filed into is OPEN after it only where it was. -/
theorem opensNone_fileFrame (f : FrameCtx) (slot : Nat) (s : State) : OpensNone s (fileFrame f slot s) := by
  unfold fileFrame
  split
  · unfold fileIntoSet
    extract_lets r title before retake extra sc1 r1 s1
    have filed : OpensNone s s1 := { le := countOpen_set_le id }
    split
    · exact filed.trans (opensNone_closeSet ..)
    · exact filed
  · exact {}
  · unfold fileIntoGroup
    extract_lets
    split <;> exact {}
  · exact {}

theorem opensNone_fileOpen (s : State) : OpensNone s (fileOpen s) := by
  unfold fileOpen
  split
  · exact (opensNone_fileFrame ..).trans {}
  all_goals exact {}

end OpensNone

/-! ### START (R126) -/

/-- At most one record is OPEN in `t` if that is so in `s`. -/
structure KeepsOneOpen (s t : State) : Prop where
  keeps : OneOpen s → OneOpen t

section Start
variable {s t : State} {x : Target}

theorem KeepsOneOpen.trans {s t u : State} (h : KeepsOneOpen s t) (g : KeepsOneOpen t u) : KeepsOneOpen s u :=
  ⟨g.keeps ∘ h.keeps⟩

theorem OpensNone.keeps (h : OpensNone s t) : KeepsOneOpen s t := ⟨Nat.le_trans h.le⟩

/-- So an operation that leaves the SAU as it is keeps it. -/
theorem KeepsOneOpen.of_sau (same : t.sau = s.sau := by rfl) : KeepsOneOpen s t := (OpensNone.of_sau same).keeps

/-- R115: a state with no OPEN record. -/
def NoneOpen (s : State) : Prop := s.sau.sets.countP SetRecord.isOpen = 0

theorem NoneOpen.oneOpen (h : NoneOpen s) : OneOpen s := Nat.le_trans (Nat.le_of_eq h) (Nat.zero_le 1)

theorem OpensNone.noneOpen (h : OpensNone s t) (none : NoneOpen s) : NoneOpen t :=
  Nat.eq_zero_of_le_zero (Nat.le_trans h.le (Nat.le_of_eq none))

theorem openRecord_oneOpen (n : Nat) (none : NoneOpen s) : OneOpen (openRecord n s) :=
  Nat.le_trans (countOpen_set_succ _) (Nat.le_of_eq (congrArg (· + 1) none))

/-- R126 steps 2 to 4: one record at most is opened. -/
theorem openOrForce_oneOpen (x : Target) (none : NoneOpen s) : OneOpen (openOrForce x s) := by
  unfold openOrForce
  split
  · exact openRecord_oneOpen _ none
  · split
    · exact NoneOpen.oneOpen (s := setPassMode true s) none
    · extract_lets forced
      have stillNone : NoneOpen forced := ((opensNone_forceOut ..).trans (opensNone_drainBacklog _)).noneOpen none
      split
      · exact openRecord_oneOpen _ stillNone
      · exact NoneOpen.oneOpen (s := setPassMode true forced) stillNone

/-- R125: the end of the current set leaves no record OPEN. -/
theorem endSet_noneOpen {n roll ordinal : Nat} (one : OneOpen s) (current : currentSet s.sau = some n) :
    NoneOpen (endSet n roll ordinal s) := by
  obtain ⟨r, items, ended, cases⟩ := endSet_cases n roll ordinal s
  have sets : (endSet n roll ordinal s).sau.sets = s.sau.sets.set n r := by
    rcases cases with ⟨_, e⟩ | ⟨x, _, _, e⟩ <;> rw [e]
    · rfl
    · rw [raiseNotice_sau]; rfl
  unfold NoneOpen
  rw [sets]
  exact countOpen_set_ended (currentSet_opened current) (currentSet_inside current) ended.notOpen one

theorem oneOpen_startTargetOp (x : Target) (s : State) : KeepsOneOpen s (startTargetOp x s) := by
  refine ⟨fun one => ?_⟩
  unfold startTargetOp
  split
  · rename_i noCurrent
    exact openOrForce_oneOpen x (countOpen_noCurrent noCurrent)
  · rename_i n current
    extract_lets r note
    refine openOrForce_oneOpen x ((opensNone_drainBacklog _).noneOpen (endSet_noneOpen ?_ ?_))
    · exact (opensNone_raiseNotice note s).keeps.keeps one
    · rw [raiseNotice_sau]
      exact current

theorem oneOpen_targetOp (x : Target) (s : State) : KeepsOneOpen s (targetOp x s) := by
  refine KeepsOneOpen.trans (t := { s with rs := { s.rs with intake := .idle } }) .of_sau ?_
  unfold targetOp
  extract_lets
  split
  · exact oneOpen_startTargetOp ..
  · exact (opensNone_endTargetOp ..).keeps
  · exact (opensNone_batchEndOp ..).keeps

end Start

end Sys2Proof.Machine
end

section
/-! SUPPORT. The SAU under the operations of the other blocks, and the OPEN records under every command (R115): the relation
`KeepsOneOpen` between the states before and after. The statement O11. -/

namespace Sys2Proof.Machine

-- Checked one after another, as the tests are, to hold the memory and the threads down.
set_option Elab.async false

/-! ### The intake leaves the SAU (R55 to R80) -/

section IntakeSau
variable (s : State)

theorem takeHeader_sau (h : Header) : (takeHeader h s).sau = s.sau := by
  have evaluated (m : Option Matched) : (evaluateHeader h m s).sau = s.sau := (evaluateHeader_raisesOnly h m s).sau
  have clamped (g : Geometry) (m : Option Matched) (u : State) : (noticeClamped g h m u).sau = u.sau := by
    unfold noticeClamped
    split
    · exact raiseNotice_sau ..
    · rfl
  have floor (m : Option Matched) (rf : Nat) (u : State) : (floorTest h m rf u).sau = u.sau := by
    unfold floorTest
    split
    · exact raiseNotice_sau ..
    · exact clamped _ m u
  unfold takeHeader
  split
  · exact raiseNotice_sau ..
  · split
    · rfl
    · exact (raiseNotice_sau ..).trans (evaluated _)
    · exact (floor ..).trans (evaluated _)
    · exact (floor ..).trans (evaluated _)

theorem workStep_sau {f : FrameCtx} {g : Geometry} {slot : Nat} {s t : State} (e : workStep f g slot s = some t) :
    t.sau = s.sau := by
  have placed (f : FrameCtx) (inks : List Byte) (u : State) : (placeLine f g slot inks u).sau = u.sau := by
    unfold placeLine
    split <;> rfl
  have filled : (fillLine f g slot s).sau = s.sau := placed ..
  unfold workStep at e
  split at e
  · cases e
  · rename_i n samples _
    have resampled : (resampleLine f g slot samples s).sau = s.sau := by
      unfold resampleLine
      split
      · exact filled
      · extract_lets
        split <;> exact placed ..
    split at e <;> cases e
    · exact filled
    · exact resampled
  · rename_i sent _
    have checked : (sentCheck f slot sent s).sau = s.sau := by
      unfold sentCheck
      split
      · split <;> rfl
      · rfl
    split at e <;> cases e
    · exact filled
    · exact checked
  · cases e
  · cases e; rfl

theorem runWork_sau (n : Nat) (s : State) : (runWork n s).sau = s.sau := by
  induction n generalizing s with
  | zero => rfl
  | succ n ih =>
    unfold runWork
    split
    · split
      · rename_i step; rw [ih, workStep_sau step]
      · rfl
    · rfl

theorem abortWith_sau (f : FrameCtx) (lost : Notice) : (abortWith f lost s).sau = s.sau := by
  obtain ⟨again, queue, e⟩ := releaseReservation_frame s
  exact (raiseNotice_sau ..).trans ((congrArg State.sau e).trans rfl)

theorem intakeLinkLoss_sau : (intakeLinkLoss s).sau = s.sau := by
  unfold intakeLinkLoss
  split
  case h_4 | h_5 | h_6 => rfl
  all_goals exact abortWith_sau ..

end IntakeSau

/-! ### The FLI, the MU and the CLI leave the SAU (R3, R87, R153 to R173) -/

section LinksSau
variable (s : State)

theorem tableWriteOp_sau (tag kind : Byte) (position : Nat) (content : List Byte) :
    (tableWriteOp tag kind position content s).sau = s.sau := by
  unfold tableWriteOp
  split
  · rfl
  · split <;> rfl

theorem monitorSetupOp_sau (tag : Byte) (m : MonitorFields) : (monitorSetupOp tag m s).sau = s.sau := by
  have warned (on : Bool) (u : State) : (warnLate s.dm on u).sau = u.sau := by
    unfold warnLate
    split
    · split
      · exact raiseNotice_sau ..
      · rfl
    · rfl
  unfold monitorSetupOp
  split
  · rfl
  · exact warned ..

theorem takeRecord_sau (r : LinkRecord) : (takeRecord r s).sau = s.sau := by
  have marked (k : FilmKind) (u : State) : (markLoss k u).sau = u.sau := by
    unfold markLoss
    split <;> rfl
  unfold takeRecord
  split
  · unfold takeCheckError
    split
    · exact (marked ..).trans (raiseNotice_sau ..)
    · exact raiseNotice_sau ..
  · split
    · rfl
    · unfold overrun
      split <;> rfl
  · split <;> rfl

theorem endSending_sau : (endSending s).sau = s.sau := by
  unfold endSending
  split
  · rfl
  all_goals split <;> rfl

theorem CardLinkOnly.sau {s t : State} (h : CardLinkOnly s t) : t.sau = s.sau := by
  obtain ⟨read, cli, cardOut, rfl⟩ := h
  rfl

theorem pump_sau : (pump s).sau = s.sau := (cardLinkOnly_pump s).sau

theorem endAttempt_sau (c : Card) (v : Verdict) : (endAttempt c v s).sau = s.sau := (attemptEnded c v s).sau

theorem withdrawRetry_sau (k : CardKind) : (withdrawRetry k s).sau = s.sau := by
  obtain ⟨sc, freed⟩ := withdrawSlot_frame k s
  unfold withdrawRetry
  rw [freed]
  exact (copyDone_leaves _ k).sau

theorem takeAccepted_sau (echo : Nat) : (takeAccepted echo s).sau = s.sau := by
  have noticed : (raiseNotice (lateNotice s 0xD1 echo) s).sau = s.sau := raiseNotice_sau ..
  unfold takeAccepted
  split
  · exact endAttempt_sau ..
  · unfold lateAccepted
    extract_lets
    split
    · split
      · exact (withdrawRetry_sau ..).trans noticed
      · exact noticed
    · exact noticed

theorem takeSpoiled_sau (echo : Nat) (reason : SpoilReason) : (takeSpoiled echo reason s).sau = s.sau := by
  unfold takeSpoiled
  split
  · exact endAttempt_sau ..
  · exact raiseNotice_sau ..

theorem takeRecorderState_sau (ready : Bool) : (takeRecorderState ready s).sau = s.sau :=
  (cardLinkOnly_takeRecorderState ready s).sau

theorem takeRestarted_sau : (takeRestarted s).sau = s.sau := by
  unfold takeRestarted
  extract_lets
  split
  · exact (endAttempt_sau ..).trans (raiseNotice_sau ..)
  · exact raiseNotice_sau ..

theorem takeMessage_sau (m : RecorderMessage) : (takeMessage m s).sau = s.sau := by
  cases m with
  | state ready => exact takeRecorderState_sau s ready
  | accepted echo => exact takeAccepted_sau s echo
  | spoiled echo reason => exact takeSpoiled_sau s echo reason
  | restarted => exact takeRestarted_sau s

theorem removeMarker_sau : (removeMarker s).sau = s.sau := raiseNotice_sau ..

/-- R155: a row that is served goes to the card, and the SAU stands. -/
theorem readServed_sau (r : ReadBurst) : (readServed r s).sau = s.sau := pump_sau _

end LinksSau

/-! ### What follows from a change (R118, R136, R138, R142, R143) -/

section Follows
variable {s t : State}

theorem opensNone_settleCards (e : settleCards s = some t) : OpensNone s t := by
  unfold settleCards at e
  split at e
  · cases e
    unfold markerOrRelease
    extract_lets s1
    have counted : OpensNone s s1 := {}
    split
    · exact counted.trans (.of_sau (removeMarker_sau s1))
    · exact counted.trans (opensNone_askRelease ..)
  · cases e; exact .of_sau (removeMarker_sau s)
  · cases e; exact opensNone_askRelease ..
  · rw [Option.map_eq_some_iff] at e
    obtain ⟨⟨u, k, a⟩, handed, rfl⟩ := e
    obtain ⟨cs, rfl⟩ := chooseCard_cs (boundaryCard_some handed).2
    exact .of_sau (pump_sau _)

theorem opensNone_settleStep (e : settleStep s = some t) : OpensNone s t := by
  rcases settleStep_cases e with ⟨_, _, rfl⟩ | ⟨f, _, rfl⟩ | ⟨f, n, _, rfl⟩ | cards
  · exact opensNone_placeHead s
  · exact {}
  · exact {}
  · exact opensNone_settleCards cards

theorem oneOpen_settle (s : State) : KeepsOneOpen s (settle s) :=
  ⟨settle_keeps (P := OneOpen) (fun _ _ h e => (opensNone_settleStep e).keeps.keeps h) fun _ h => h⟩

theorem oneOpen_beginWake (s : State) : KeepsOneOpen s (beginWake s) :=
  KeepsOneOpen.trans (t := { s with sc := { s.sc with mode := .waking } }) .of_sau (oneOpen_settle _)

theorem oneOpen_finish (s : State) : KeepsOneOpen s (finish s) := by
  have met : KeepsOneOpen s (meetHeader s) := by
    unfold meetHeader
    split
    · exact oneOpen_beginWake s
    · exact .of_sau
  have told := (channel_frame (meetHeader s)).1
  refine met.trans (.of_sau ?_)
  unfold finish
  rw [told]

/-- An operation that keeps it, and what it sets off. -/
theorem KeepsOneOpen.settle {u : State} (h : KeepsOneOpen s u) : KeepsOneOpen s (settle u) := h.trans (oneOpen_settle u)

/-- An operation that leaves the SAU, and what it sets off. -/
theorem oneOpen_settle_of {u : State} (same : u.sau = s.sau := by rfl) : KeepsOneOpen s (Machine.settle u) :=
  (KeepsOneOpen.of_sau same).settle

/-- A target that has left the FIFO. -/
theorem oneOpen_targetOp_head (x : Target) (s : State) : KeepsOneOpen s (targetOp x (popHead s)) :=
  KeepsOneOpen.trans .of_sau (oneOpen_targetOp x (popHead s))

end Follows

/-! ### The intake (R55 to R80) -/

section Intake
variable {s : State}

theorem oneOpen_takeCause (s : State) : KeepsOneOpen s (takeCause s) := by
  unfold takeCause
  split
  · exact oneOpen_settle_of (takeHeader_sau ..)
  · exact (oneOpen_targetOp_head ..).settle
  all_goals exact .of_sau

theorem oneOpen_advance (s : State) : KeepsOneOpen s (advance s) := by
  have closed (implicit : Bool) (u : State) : KeepsOneOpen u (closeFrame implicit u) := by
    have filed := (opensNone_fileOpen u).keeps.settle
    unfold closeFrame
    extract_lets
    split
    · exact filed.trans (oneOpen_takeCause _)
    · exact filed
  refine (KeepsOneOpen.of_sau (runWork_sau workFuel s)).trans ?_
  unfold advance
  extract_lets
  split
  · exact closed ..
  · exact .of_sau

/-- What leaves the SAU before the Resampler goes on keeps it, and so does that. -/
theorem oneOpen_advance_of {u : State} (same : u.sau = s.sau := by rfl) : KeepsOneOpen s (advance u) :=
  (KeepsOneOpen.of_sau same).trans (oneOpen_advance u)

theorem oneOpen_implicitEnd (f : FrameCtx) (s : State) : KeepsOneOpen s (implicitEnd f s) :=
  oneOpen_advance_of (raiseNotice_sau ..)

theorem oneOpen_takeFrameHeader (h : Header) (s : State) : KeepsOneOpen s (takeFrameHeader h s) := by
  unfold takeFrameHeader
  split
  · exact oneOpen_implicitEnd ..
  all_goals exact oneOpen_settle_of (takeHeader_sau ..)

theorem oneOpen_takeLineRecord (n : Nat) (samples : List Byte) (s : State) :
    KeepsOneOpen s (takeLineRecord n samples s) := by
  unfold takeLineRecord
  split
  · unfold takeLine
    extract_lets
    split
    · exact oneOpen_advance_of
    · exact .of_sau
  all_goals exact .of_sau

theorem oneOpen_takeFrameEndRecord (sent : Nat) (s : State) : KeepsOneOpen s (takeFrameEndRecord sent s) := by
  unfold takeFrameEndRecord
  split
  · exact oneOpen_advance_of
  all_goals exact .of_sau

theorem oneOpen_takeTarget (x : Target) (s : State) : KeepsOneOpen s (takeTarget x s) := by
  unfold takeTarget
  split
  · exact oneOpen_implicitEnd ..
  all_goals exact (oneOpen_targetOp_head ..).settle

theorem oneOpen_takeLoss (k : FilmKind) (s : State) : KeepsOneOpen s (takeLoss k s) := by
  unfold takeLoss
  split
  · split
    · exact oneOpen_implicitEnd ..
    all_goals exact .of_sau
  all_goals exact .of_sau

end Intake

/-! ### Management records and the store's events (R98, R104, R105, R107 to R112, R131, R132, R146, R176) -/

section Records
variable (s : State)

theorem oneOpen_setReleaseOp (tag : Byte) (n : Nat) : KeepsOneOpen s (setReleaseOp tag n s) := by
  unfold setReleaseOp
  split
  · exact .of_sau
  · exact ((opensNone_releaseSet n s).keeps.trans .of_sau).settle

theorem oneOpen_setDiscardOp (tag : Byte) (n : Nat) : KeepsOneOpen s (setDiscardOp tag n s) := by
  have discarded (u : State) : KeepsOneOpen u (discardSet n u) := OpensNone.keeps { le := countOpen_set_le nofun }
  unfold setDiscardOp
  split
  · exact .of_sau
  · extract_lets
    split
    case h_3 | h_4 => exact .of_sau
    all_goals exact (KeepsOneOpen.trans .of_sau (discarded _)).settle

theorem oneOpen_cardCancelOp (tag : Byte) : KeepsOneOpen s (cardCancelOp tag s) := by
  unfold cardCancelOp
  split
  · exact oneOpen_settle_of (endAttempt_sau ..)
  · exact .of_sau

theorem oneOpen_storeSetupOp (tag : Byte) (interval banks : Nat) : KeepsOneOpen s (storeSetupOp tag interval banks s) := by
  unfold storeSetupOp
  split
  · exact .of_sau
  · exact oneOpen_settle_of

theorem oneOpen_storeRetainOp (tag : Byte) : KeepsOneOpen s (storeRetainOp tag s) := by
  unfold storeRetainOp
  split
  · split <;> exact .of_sau
  all_goals exact .of_sau

theorem oneOpen_storeWakeOp (tag : Byte) : KeepsOneOpen s (storeWakeOp tag s) := by
  unfold storeWakeOp
  split
  · exact KeepsOneOpen.trans .of_sau (oneOpen_beginWake _)
  all_goals exact .of_sau

/-- R113: with every record EMPTY none is OPEN. -/
theorem oneOpen_blank {t : State} (blank : t.sau = .blank) : KeepsOneOpen s t := by
  refine ⟨fun _ => ?_⟩
  unfold OneOpen
  rw [blank]
  decide

/-- R112: a purge empties the SAU before it goes on with the target that waits. -/
theorem oneOpen_storePurgeOp (tag : Byte) : KeepsOneOpen s (storePurgeOp tag s) := by
  have again (u : State) : KeepsOneOpen u (againTarget u) := by
    unfold againTarget
    split
    · exact oneOpen_targetOp ..
    all_goals exact .of_sau
  unfold storePurgeOp
  split
  · exact .of_sau
  · exact (((oneOpen_blank s (purgeAll_sau _)).trans (again _)).trans (.of_sau purgeEnd_sau)).settle

theorem oneOpen_recorderSetupOp (tag : Byte) (pr timeout : Nat) : KeepsOneOpen s (recorderSetupOp tag pr timeout s) := by
  unfold recorderSetupOp
  split <;> exact .of_sau

theorem oneOpen_writeServed (w : WriteBurst) : KeepsOneOpen s (writeServed w s) := by
  unfold writeServed
  extract_lets
  split
  · exact oneOpen_settle_of
  · exact oneOpen_advance_of

theorem oneOpen_endWake : KeepsOneOpen s (endWake s) := by
  unfold endWake
  extract_lets
  split
  · exact oneOpen_settle_of (takeHeader_sau ..)
  · exact .of_sau

end Records

/-! ### Every command -/

section Commands
variable {s t : State}

/-- An event whose condition does not hold has no effect (log entry 1). -/
theorem oneOpen_event {p : Prop} [Decidable p] {u : State} (hu : KeepsOneOpen s u)
    (e : (if p then .next (finish u) else .next (fresh s) : Host.Outcome State Fault Refusal) = .next t) :
    KeepsOneOpen s t := by
  split at e <;> cases e
  · exact hu.trans (oneOpen_finish u)
  · exact .of_sau

/-- Nor has a command when what it acts on does not stand there. -/
theorem oneOpen_actOn {α : Type} {c : Instr} {head : Option α} {op : α → State} (e : exec c s = .next t)
    (acts : exec c s = actOn head op s) (hop : ∀ a, KeepsOneOpen s (op a)) : KeepsOneOpen s t := by
  rw [acts] at e
  cases head with
  | none => cases e; exact .of_sau
  | some a => cases e; exact (hop a).trans (oneOpen_finish _)

/-- Every command leaves at most one record OPEN. -/
theorem exec_oneOpen {c : Instr} (e : exec c s = .next t) : KeepsOneOpen s t := by
  have begun {u : State} (h : KeepsOneOpen (fresh s) u) : KeepsOneOpen s u := KeepsOneOpen.trans .of_sau h
  have head {u : State} (h : KeepsOneOpen (taken s) u) : KeepsOneOpen s u := KeepsOneOpen.trans .of_sau h
  have told {u : State} (same : u.sau = (fresh s).sau) : KeepsOneOpen s (settle u) := oneOpen_settle_of same
  cases c with
  | powerOn => cases e; exact oneOpen_blank s rfl
  | loadingEnd words => exact oneOpen_event .of_sau e
  | linkUp => exact oneOpen_event .of_sau e
  | linkLoss =>
    have dropped : (intakeLinkLoss (dropLink (fresh s))).sau = s.sau := (intakeLinkLoss_sau _).trans (raiseNotice_sau ..)
    exact oneOpen_event (oneOpen_settle_of dropped) e
  | recordReceived r => exact oneOpen_event (.of_sau (takeRecord_sau (fresh s) r)) e
  | frameHeader =>
    simp only [exec, execFrameHeader] at e
    split at e
    · split at e <;> cases e
      · exact (begun (oneOpen_takeFrameHeader ..)).trans (oneOpen_finish _)
      · exact begun (oneOpen_finish _)
    · cases e; exact .of_sau
  | line => exact oneOpen_actOn e (exec_line s) fun _ => head (oneOpen_takeLineRecord ..)
  | frameEnd => exact oneOpen_actOn e (exec_frameEnd s) fun _ => head (oneOpen_takeFrameEndRecord ..)
  | start => exact oneOpen_actOn e (exec_start s) fun _ => begun (oneOpen_takeTarget ..)
  | endTarget => exact oneOpen_actOn e (exec_endTarget s) fun _ => begun (oneOpen_takeTarget ..)
  | batchEnd => exact oneOpen_actOn e (exec_batchEnd s) fun _ => begun (oneOpen_takeTarget ..)
  | lossIndication => exact oneOpen_actOn e (exec_lossIndication s) fun _ => begun (oneOpen_takeLoss ..)
  | tableWrite => exact oneOpen_actOn e (exec_tableWrite s) fun _ => head (.of_sau (tableWriteOp_sau ..))
  | tableFence => exact oneOpen_actOn e (exec_tableFence s) fun _ => .of_sau
  | tableRead => exact oneOpen_actOn e (exec_tableRead s) fun _ => .of_sau
  | tableDescribe => exact oneOpen_actOn e (exec_tableDescribe s) fun _ => .of_sau
  | setRelease => exact oneOpen_actOn e (exec_setRelease s) fun _ => head (oneOpen_setReleaseOp ..)
  | setDiscard => exact oneOpen_actOn e (exec_setDiscard s) fun _ => head (oneOpen_setDiscardOp ..)
  | cardCancel => exact oneOpen_actOn e (exec_cardCancel s) fun _ => head (oneOpen_cardCancelOp ..)
  | storeSetup => exact oneOpen_actOn e (exec_storeSetup s) fun _ => head (oneOpen_storeSetupOp ..)
  | storeRetain => exact oneOpen_actOn e (exec_storeRetain s) fun _ => head (oneOpen_storeRetainOp ..)
  | storeWake => exact oneOpen_actOn e (exec_storeWake s) fun _ => head (oneOpen_storeWakeOp ..)
  | storePurge => exact oneOpen_actOn e (exec_storePurge s) fun _ => head (oneOpen_storePurgeOp ..)
  | storePurgeDone => exact oneOpen_actOn e (exec_storePurgeDone s) fun _ => told (purgeLast_sau ..)
  | monitorSetup => exact oneOpen_actOn e (exec_monitorSetup s) fun _ => head (.of_sau (monitorSetupOp_sau ..))
  | recorderSetup => exact oneOpen_actOn e (exec_recorderSetup s) fun _ => head (oneOpen_recorderSetupOp ..)
  | statusRead => exact oneOpen_actOn e (exec_statusRead s) fun _ => .of_sau
  | statusClear => exact oneOpen_actOn e (exec_statusClear s) fun _ => .of_sau
  | linkReset => exact oneOpen_actOn e (exec_linkReset s) fun _ => oneOpen_blank s rfl
  | linkResetComplete => exact oneOpen_actOn e (exec_linkResetComplete s) fun _ => .of_sau
  | unknownKind => exact oneOpen_actOn e (exec_unknownKind s) fun _ => .of_sau
  | writeBurstServed =>
    simp only [exec, execWriteBurstServed] at e
    split at e
    · split at e <;> cases e
      exact (begun (oneOpen_writeServed ..)).trans (oneOpen_finish _)
    · cases e; exact .of_sau
  | readBurstServed =>
    simp only [exec, execReadBurstServed] at e
    split at e
    · split at e <;> cases e
      exact (begun (.of_sau (readServed_sau ..))).trans (oneOpen_finish _)
    · cases e; exact .of_sau
  | refreshDue => cases e; exact .of_sau
  | refreshEnd => cases e; exact .of_sau
  | wakeEnd => exact oneOpen_event (begun (oneOpen_endWake _)) e
  | responseTimerExpiry => exact oneOpen_actOn e (exec_responseTimerExpiry s) fun _ => told (endAttempt_sau ..)
  | recorderState ready => cases e; exact (told (takeRecorderState_sau ..)).trans (oneOpen_finish _)
  | cardAccepted echo => cases e; exact (told (takeAccepted_sau ..)).trans (oneOpen_finish _)
  | cardSpoiled echo reason => cases e; exact (told (takeSpoiled_sau ..)).trans (oneOpen_finish _)
  | recorderRestarted => cases e; exact (told (takeRestarted_sau _)).trans (oneOpen_finish _)
  | recorderMessageDropped r =>
    exact oneOpen_actOn e (exec_recorderMessageDropped s r) fun _ => told (takeMessage_sau ..)
  | returnSendEnd => exact oneOpen_event (.of_sau (endSending_sau (fresh s))) e

end Commands

/-- Settles O11: every command leaves at most one record OPEN (`exec_oneOpen`). -/
theorem stepKeepsOneOpen : Obligations.StepKeepsOneOpen := by
  intro s t before e
  unfold step at e
  split at e
  · cases e; exact before
  · rename_i c cs _
    exact (exec_oneOpen (s := { s with pending := cs }) e).keeps before

end Sys2Proof.Machine
end
